-- ==== Sys2Proof/Word.lean ====
section
/-! DEFINITION. The word types of the IFPC: a Byte, a sequence of Bytes and the 16-bit request word (R17, R61). -/

namespace Sys2Proof

/-- R17: an unsigned 8-bit value. -/
abbrev Byte := BitVec 8

/-- R17: a finite sequence of Bytes, element 0 first on the wire (R43). -/
abbrev Bytes := List Byte

/-- R61: the request word, bit 0 its least significant bit. -/
abbrev ReqWord := BitVec 16

end Sys2Proof
end

