-- ==== Sys2Proof/Config.lean ====
section
/-! DEFINITION. The configuration record `Cfg` (R7 to R14): everything an integrator fixes before the first
request. The spec leaves no result value open, so there is no free value here. -/

namespace Sys2Proof

/-- R7: the static parameters. A model takes it as an argument; here it is carried in State, which no step
changes (log entry 1). Its code values are OPEN in the spec (D4): claims hold for every well-formed `Cfg`. -/
structure Cfg where
  /-- R8: `CAP`, the frame buffer's capacity in bytes. -/
  cap : Nat
  /-- R10: `VERSION`. -/
  version : Byte
  /-- R11: `TYPE_CURRENT_STATE`. -/
  typeCurrentState : Byte
  /-- R11: `TYPE_ERROR_STATE`. -/
  typeErrorState : Byte
  /-- R11: `TYPE_RPC_COMMAND`. -/
  typeRpcCommand : Byte
  /-- R11: `TYPE_RPC_RESPONSE`. -/
  typeRpcResponse : Byte
  /-- R12: `CMD_GET_CURRENT_STATE`. -/
  cmdGetCurrentState : Byte
  /-- R12: `CMD_WIFI_SETTINGS`. -/
  cmdWifiSettings : Byte
  /-- R12: `CMD_GET_DEVICE_INFO`. -/
  cmdGetDeviceInfo : Byte
  /-- R12: `CMD_GET_WIFI_NETWORKS`. -/
  cmdGetWifiNetworks : Byte
  /-- R13: `STATE_STOPPED`. -/
  stateStopped : Byte
  /-- R13: `STATE_AUTHORIZED`. -/
  stateAuthorized : Byte
  /-- R13: `STATE_PROVISIONING`. -/
  stateProvisioning : Byte
  /-- R13: `STATE_PROVISIONED`. -/
  stateProvisioned : Byte
  /-- R14: `ERR_NONE`. -/
  errNone : Byte
  /-- R14: `ERR_INVALID_RPC`. -/
  errInvalidRpc : Byte
  /-- R14: `ERR_UNKNOWN_RPC`. -/
  errUnknownRpc : Byte
  /-- R14: `ERR_UNABLE_TO_CONNECT`. -/
  errUnableToConnect : Byte
  /-- R14: `ERR_NOT_AUTHORIZED`. -/
  errNotAuthorized : Byte
  deriving DecidableEq, Repr

end Sys2Proof
end

