-- ==== Sys2Proof/Syntax.lean ====
section
/-! DEFINITION. The instructions of the IFPC: one constructor of `Instr` per row of spec/opcode_table.json, the
enumerations their operands name, and the form in which an instruction is presented to the block (R60, R68). -/

namespace Sys2Proof

/-- R11: the four frame types. -/
inductive FrameType where
  | currentState | errorState | rpcCommand | rpcResponse
  deriving DecidableEq, Repr

/-- R12, R67: the four commands that have a wire value, in selector order. -/
inductive Command where
  | getCurrentState | wifiSettings | getDeviceInfo | getWifiNetworks
  deriving DecidableEq, Repr

/-- R71: the kind of a decoded command; `unknown` stands for every id that is not one of the four (R12). -/
inductive CommandKind where
  | getCurrentState | wifiSettings | getDeviceInfo | getWifiNetworks | unknown
  deriving DecidableEq, Repr

/-- R13, R65: the provisioning states, in selector order. -/
inductive ProvState where
  | stopped | authorized | provisioning | provisioned
  deriving DecidableEq, Repr

/-- R14, R66: the error codes, in selector order. -/
inductive ErrorCode where
  | none | invalidRpc | unknownRpc | unableToConnect | notAuthorized
  deriving DecidableEq, Repr

/-- R62: the eight OP values. -/
inductive OpName where
  | reset | rxByte | encState | encError | encRpcResponse | checksum | decodeRpcCommand | reservedOp
  deriving DecidableEq, Repr

/-- R241: the reasons of a request fault. -/
inductive RequestFaultReason where
  /-- OP = 111 (R211). -/
  | reservedOp
  /-- A nonzero reserved bit of the request word (R63, R64). -/
  | reservedBits
  /-- ENC_ERROR with a selector of 5..7 (R106). -/
  | reservedSelector
  /-- A payload over the 255-byte ceiling (R110, R149). -/
  | payloadTooLong
  deriving DecidableEq, Repr

/-- R68: the side operand `X` of a request; absent for the requests that take none. -/
inductive SideOperand where
  /-- No side operand: RESET, RX_BYTE, ENC_STATE, ENC_ERROR. -/
  | absent
  /-- `F`, the ordered fields of ENC_RPC_RESPONSE. -/
  | fields (f : List Bytes)
  /-- `D` of CHECKSUM, `P` of DECODE_RPC_COMMAND. -/
  | bytes (d : Bytes)
  deriving DecidableEq, Repr

/-- R87: which table a wire-code row belongs to, that is, which place of a frame the byte is a code for. -/
inductive WireClass where
  /-- Frame offset 7 (R76). -/
  | frameType
  /-- Payload offset 0 of an RPC frame (R77, R79). -/
  | command
  /-- The payload byte of a CURRENT_STATE frame (R81). -/
  | state
  /-- The payload byte of an ERROR_STATE frame (R81). -/
  | error
  deriving DecidableEq, Repr

/-- What the environment presents to the block. `request` is the pair `(w, X)` of R60. `wire` is one byte of the
wire format taken as a code of the given table: the bits of a wire-code row (log entries 11 and 12). -/
inductive Presented where
  | request (w : ReqWord) (x : SideOperand)
  | wire (c : WireClass) (b : Byte)
  deriving DecidableEq, Repr

/-- Why the decoder gives no instruction. -/
inductive Reject where
  /-- R83: a reserved request encoding; the request raises this fault. -/
  | requestFault (r : RequestFaultReason)
  /-- The side operand is not of the kind R68 gives the OP: not a request of R60 (log entry 10). -/
  | sideOperand
  deriving DecidableEq, Repr

/-- One constructor per row of spec/opcode_table.json, in its order. -/
inductive Instr where
  /-- RESET (R210). -/
  | reset
  /-- RX_BYTE (R170): the received byte. -/
  | rxByte (b : Byte)
  /-- ENC_STATE (R104): the state `ssel` selects (R65). -/
  | encState (st : ProvState)
  /-- ENC_ERROR (R106): the raw selector; 5..7 are reserved (R66) and R106 itself tests for them. -/
  | encError (esel : BitVec 3)
  /-- ENC_RPC_RESPONSE (R107): include checksum, the command `csel` selects (R67), the fields. -/
  | encRpcResponse (ic : Bool) (c : Command) (f : List Bytes)
  /-- CHECKSUM (R101). -/
  | checksum (d : Bytes)
  /-- DECODE_RPC_COMMAND (R149). -/
  | decodeRpcCommand (pl : Bytes)
  /-- RESERVED_OP (R211): the word's other 13 bits. -/
  | reservedOp (bits : BitVec 13)
  /-- FRAME_CURRENT_STATE (R76). -/
  | frameCurrentState
  /-- FRAME_ERROR_STATE (R76). -/
  | frameErrorState
  /-- FRAME_RPC_COMMAND (R76). -/
  | frameRpcCommand
  /-- FRAME_RPC_RESPONSE (R76). -/
  | frameRpcResponse
  /-- CMD_WIFI_SETTINGS (R142). -/
  | cmdWifiSettings
  /-- CMD_GET_CURRENT_STATE (R142). -/
  | cmdGetCurrentState
  /-- CMD_GET_DEVICE_INFO (R142). -/
  | cmdGetDeviceInfo
  /-- CMD_GET_WIFI_NETWORKS (R142). -/
  | cmdGetWifiNetworks
  /-- CMD_UNKNOWN (R142): an id that is none of the four. -/
  | cmdUnknown (id : Byte)
  /-- STATE_STOPPED (R81). -/
  | stateStopped
  /-- STATE_AUTHORIZED (R81). -/
  | stateAuthorized
  /-- STATE_PROVISIONING (R81). -/
  | stateProvisioning
  /-- STATE_PROVISIONED (R81). -/
  | stateProvisioned
  /-- ERROR_NONE (R81). -/
  | errorNone
  /-- ERROR_INVALID_RPC (R81). -/
  | errorInvalidRpc
  /-- ERROR_UNKNOWN_RPC (R81). -/
  | errorUnknownRpc
  /-- ERROR_UNABLE_TO_CONNECT (R81). -/
  | errorUnableToConnect
  /-- ERROR_NOT_AUTHORIZED (R81). -/
  | errorNotAuthorized
  deriving DecidableEq, Repr

end Sys2Proof
end

