-- ==== Sys2Proof/WellFormed.lean ====
section
/-! DEFINITION. The checks of R15 on a `Cfg`, and the operand ranges an instruction's rules give it. -/

namespace Sys2Proof

/-- R11: the four type codes. -/
def Cfg.typeTable (c : Cfg) : List Byte :=
  [c.typeCurrentState, c.typeErrorState, c.typeRpcCommand, c.typeRpcResponse]

/-- R12: the four command ids. -/
def Cfg.cmdTable (c : Cfg) : List Byte :=
  [c.cmdGetCurrentState, c.cmdWifiSettings, c.cmdGetDeviceInfo, c.cmdGetWifiNetworks]

/-- R13: the four state codes. -/
def Cfg.stateTable (c : Cfg) : List Byte :=
  [c.stateStopped, c.stateAuthorized, c.stateProvisioning, c.stateProvisioned]

/-- R14: the five error codes. -/
def Cfg.errorTable (c : Cfg) : List Byte :=
  [c.errNone, c.errInvalidRpc, c.errUnknownRpc, c.errUnableToConnect, c.errNotAuthorized]

/-- R15: (a) the capacity, (b) to (e) each code table without repeats. -/
abbrev Cfg.WellFormed (c : Cfg) : Prop :=
  265 ≤ c.cap ∧ c.typeTable.Nodup ∧ c.cmdTable.Nodup ∧ c.stateTable.Nodup ∧ c.errorTable.Nodup

/-- An instruction's operands lie where its rule puts them: `esel <= 4` (R106), `2 + T <= 255` (R110),
`|P| <= 255` (R149), and an unknown command id is none of the four codes (R142). Every other operand is legal at
each value of its type. An ill-formed request still has a meaning: the request fault its rule names. -/
def Instr.wellFormed (cfg : Cfg) : Instr → Bool
  | .reset => true
  | .rxByte _ => true
  | .encState _ => true
  | .encError esel => decide (esel.toNat ≤ 4)
  | .encRpcResponse _ _ f => decide (2 + (f.map fun x => 1 + x.length).sum ≤ 255)
  | .checksum _ => true
  | .decodeRpcCommand pl => decide (pl.length ≤ 255)
  | .reservedOp _ => true
  | .frameCurrentState => true
  | .frameErrorState => true
  | .frameRpcCommand => true
  | .frameRpcResponse => true
  | .cmdWifiSettings => true
  | .cmdGetCurrentState => true
  | .cmdGetDeviceInfo => true
  | .cmdGetWifiNetworks => true
  | .cmdUnknown id => decide (id ∉ cfg.cmdTable)
  | .stateStopped => true
  | .stateAuthorized => true
  | .stateProvisioning => true
  | .stateProvisioned => true
  | .errorNone => true
  | .errorInvalidRpc => true
  | .errorUnknownRpc => true
  | .errorUnableToConnect => true
  | .errorNotAuthorized => true

end Sys2Proof
end

