-- ==== Sys2Proof/Machine/Codes.lean ====
section
/-! DEFINITION. The fixed marker MAGIC (R9), the code tables of `Cfg` as maps in both directions (R11 to R14, R18)
and the default profile DP (R8, R10 to R14). -/

namespace Sys2Proof

/-- R9: the ASCII string "IMPROV". The spec takes its byte values from the ASCII table (G1). -/
def magic : Bytes := [0x49#8, 0x4D#8, 0x50#8, 0x52#8, 0x4F#8, 0x56#8]

/-- R8, R10 to R14: the default profile DP. PRESUMED: the spec marks its code values as general knowledge (G2 to
G6); no statement rests on them except those that name DP (log entry 2). -/
def Cfg.dp : Cfg where
  cap := 265
  version := 0x01#8
  typeCurrentState := 0x01#8
  typeErrorState := 0x02#8
  typeRpcCommand := 0x03#8
  typeRpcResponse := 0x04#8
  cmdGetCurrentState := 0x02#8
  cmdWifiSettings := 0x01#8
  cmdGetDeviceInfo := 0x03#8
  cmdGetWifiNetworks := 0x04#8
  stateStopped := 0x00#8
  stateAuthorized := 0x02#8
  stateProvisioning := 0x03#8
  stateProvisioned := 0x04#8
  errNone := 0x00#8
  errInvalidRpc := 0x01#8
  errUnknownRpc := 0x02#8
  errUnableToConnect := 0x03#8
  errNotAuthorized := 0x04#8

/-- R11: `TYPE_CODE`. -/
def Cfg.typeCode (cfg : Cfg) : FrameType → Byte
  | .currentState => cfg.typeCurrentState
  | .errorState => cfg.typeErrorState
  | .rpcCommand => cfg.typeRpcCommand
  | .rpcResponse => cfg.typeRpcResponse

/-- R12: `CMD_CODE`. -/
def Cfg.cmdCode (cfg : Cfg) : Command → Byte
  | .getCurrentState => cfg.cmdGetCurrentState
  | .wifiSettings => cfg.cmdWifiSettings
  | .getDeviceInfo => cfg.cmdGetDeviceInfo
  | .getWifiNetworks => cfg.cmdGetWifiNetworks

/-- R13: `STATE_CODE`. -/
def Cfg.stateCode (cfg : Cfg) : ProvState → Byte
  | .stopped => cfg.stateStopped
  | .authorized => cfg.stateAuthorized
  | .provisioning => cfg.stateProvisioning
  | .provisioned => cfg.stateProvisioned

/-- R14: `ERROR_CODE`. -/
def Cfg.errorCode (cfg : Cfg) : ErrorCode → Byte
  | .none => cfg.errNone
  | .invalidRpc => cfg.errInvalidRpc
  | .unknownRpc => cfg.errUnknownRpc
  | .unableToConnect => cfg.errUnableToConnect
  | .notAuthorized => cfg.errNotAuthorized

/-- R18: `MAP⁻¹(TYPE_CODE, v)`. -/
def Cfg.typeOf? (cfg : Cfg) (v : Byte) : Option FrameType :=
  [FrameType.currentState, .errorState, .rpcCommand, .rpcResponse].find? fun t => cfg.typeCode t == v

/-- R18: `MAP⁻¹(CMD_CODE, v)`. -/
def Cfg.commandOf? (cfg : Cfg) (v : Byte) : Option Command :=
  [Command.getCurrentState, .wifiSettings, .getDeviceInfo, .getWifiNetworks].find? fun c => cfg.cmdCode c == v

/-- R18: `MAP⁻¹(STATE_CODE, v)`. -/
def Cfg.stateOf? (cfg : Cfg) (v : Byte) : Option ProvState :=
  [ProvState.stopped, .authorized, .provisioning, .provisioned].find? fun t => cfg.stateCode t == v

/-- R18: `MAP⁻¹(ERROR_CODE, v)`. -/
def Cfg.errorOf? (cfg : Cfg) (v : Byte) : Option ErrorCode :=
  [ErrorCode.none, .invalidRpc, .unknownRpc, .unableToConnect, .notAuthorized].find? fun e => cfg.errorCode e == v

/-- R71: a named command as a decoded kind. -/
def Command.kind : Command → CommandKind
  | .getCurrentState => .getCurrentState
  | .wifiSettings => .wifiSettings
  | .getDeviceInfo => .getDeviceInfo
  | .getWifiNetworks => .getWifiNetworks

/-- R142: the kind of a COMMAND_ID byte; an id outside the table is UNKNOWN. -/
def Cfg.kindOf (cfg : Cfg) (id : Byte) : CommandKind :=
  match cfg.commandOf? id with
  | some c => c.kind
  | none => .unknown

end Sys2Proof
end

