-- ==== Sys2Proof/Decode.lean ====
section
/-! DEFINITION. The decoder of what is presented to the block (R60 to R68, R76 to R84), total on every word, side
operand and wire byte, and the encoder written from the same tables. The spec's own opcode table (R87) and its
pseudo-requests (R86) stand at the end. -/

namespace Sys2Proof

/-! ### The request word's fields (R61) -/

/-- R61: bits 15:13. -/
def opField (w : ReqWord) : BitVec 3 := w.extractLsb' 13 3

/-- R61: bits 12:9, reserved. -/
def rsvField (w : ReqWord) : BitVec 4 := w.extractLsb' 9 4

/-- R61: bit 8, include checksum. -/
def icField (w : ReqWord) : Bool := w.getLsbD 8

/-- R61: bits 7:0. -/
def argField (w : ReqWord) : Byte := w.extractLsb' 0 8

/-- R61: a word from its fields, the reserved bits zero. -/
def mkWord (op : BitVec 3) (ic : Bool) (arg : Byte) : ReqWord := op ++ 0#4 ++ BitVec.ofBool ic ++ arg

/-- R62: OP values. -/
def OpName.bits : OpName → BitVec 3
  | .reset => 0b000#3
  | .rxByte => 0b001#3
  | .encState => 0b010#3
  | .encError => 0b011#3
  | .encRpcResponse => 0b100#3
  | .checksum => 0b101#3
  | .decodeRpcCommand => 0b110#3
  | .reservedOp => 0b111#3

/-- R62: the OP a word's top three bits select. -/
def opOf (w : ReqWord) : OpName :=
  match (opField w).toNat with
  | 0 => .reset
  | 1 => .rxByte
  | 2 => .encState
  | 3 => .encError
  | 4 => .encRpcResponse
  | 5 => .checksum
  | 6 => .decodeRpcCommand
  | _ => .reservedOp

/-- R64: whether the ARG field has a reserved bit set, by OP. -/
def argReserved (op : OpName) (arg : Byte) : Bool :=
  match op with
  | .reset => arg != 0#8
  | .rxByte => false
  | .encState => arg.extractLsb' 2 6 != 0#6
  | .encError => arg.extractLsb' 3 5 != 0#5
  | .encRpcResponse => arg.extractLsb' 2 6 != 0#6
  | .checksum => arg != 0#8
  | .decodeRpcCommand => arg != 0#8
  | .reservedOp => false

/-- R63, R64: whether a word with a defined OP has a reserved bit set. -/
def reservedBitsSet (w : ReqWord) : Bool :=
  rsvField w != 0#4 || (icField w && opOf w != .encRpcResponse) || argReserved (opOf w) (argField w)

/-! ### Selectors (R65, R67) -/

/-- R65: `ssel`. -/
def stateOfSel (sel : BitVec 2) : ProvState :=
  match sel.toNat with
  | 0 => .stopped
  | 1 => .authorized
  | 2 => .provisioning
  | _ => .provisioned

/-- R65, the other way. -/
def ProvState.sel : ProvState → BitVec 2
  | .stopped => 0#2
  | .authorized => 1#2
  | .provisioning => 2#2
  | .provisioned => 3#2

/-- R67: `csel`. -/
def commandOfSel (sel : BitVec 2) : Command :=
  match sel.toNat with
  | 0 => .getCurrentState
  | 1 => .wifiSettings
  | 2 => .getDeviceInfo
  | _ => .getWifiNetworks

/-- R67, the other way. -/
def Command.sel : Command → BitVec 2
  | .getCurrentState => 0#2
  | .wifiSettings => 1#2
  | .getDeviceInfo => 2#2
  | .getWifiNetworks => 3#2

/-! ### The decoder -/

/-- R64, R68: the operands of a word whose reserved bits are clear. -/
def decodeOperands (op : OpName) (w : ReqWord) (x : SideOperand) : Except Reject Instr :=
  match op, x with
  | .reset, .absent => .ok .reset
  | .rxByte, .absent => .ok (.rxByte (argField w))
  | .encState, .absent => .ok (.encState (stateOfSel ((argField w).extractLsb' 0 2)))
  | .encError, .absent => .ok (.encError ((argField w).extractLsb' 0 3))
  | .encRpcResponse, .fields f =>
    .ok (.encRpcResponse (icField w) (commandOfSel ((argField w).extractLsb' 0 2)) f)
  | .checksum, .bytes d => .ok (.checksum d)
  | .decodeRpcCommand, .bytes pl => .ok (.decodeRpcCommand pl)
  | _, _ => .error .sideOperand

/-- R60 to R64, R83: one request. The checks come in the order of R237: the reserved OP first (an instruction of its
own, R211), then the reserved bits; the selector and the ceiling are tested by the instructions themselves
(R106, R107, R149). -/
def decodeRequest (w : ReqWord) (x : SideOperand) : Except Reject Instr :=
  if opOf w = .reservedOp then .ok (.reservedOp (w.extractLsb' 0 13))
  else if reservedBitsSet w then .error (.requestFault .reservedBits)
  else decodeOperands (opOf w) w x

/-- R76: a type byte that is one of the four codes. -/
def typeInstr : FrameType → Instr
  | .currentState => .frameCurrentState
  | .errorState => .frameErrorState
  | .rpcCommand => .frameRpcCommand
  | .rpcResponse => .frameRpcResponse

/-- R142: a command id that is one of the four codes. -/
def commandInstr : Command → Instr
  | .getCurrentState => .cmdGetCurrentState
  | .wifiSettings => .cmdWifiSettings
  | .getDeviceInfo => .cmdGetDeviceInfo
  | .getWifiNetworks => .cmdGetWifiNetworks

/-- R81, R13: a state code. -/
def stateInstr : ProvState → Instr
  | .stopped => .stateStopped
  | .authorized => .stateAuthorized
  | .provisioning => .stateProvisioning
  | .provisioned => .stateProvisioned

/-- R81, R14: an error code. -/
def errorInstr : ErrorCode → Instr
  | .none => .errorNone
  | .invalidRpc => .errorInvalidRpc
  | .unknownRpc => .errorUnknownRpc
  | .unableToConnect => .errorUnableToConnect
  | .notAuthorized => .errorNotAuthorized

/-- R76, R81, R142: a wire byte read as a code of the given table. A byte that is no code of its table is no
row; it is a byte like any other (R84) and reads as RX_BYTE of it (log entry 12). -/
def decodeWire (cfg : Cfg) (c : WireClass) (b : Byte) : Instr :=
  match c with
  | .frameType => ((cfg.typeOf? b).map typeInstr).getD (.rxByte b)
  | .command => ((cfg.commandOf? b).map commandInstr).getD (.cmdUnknown b)
  | .state => ((cfg.stateOf? b).map stateInstr).getD (.rxByte b)
  | .error => ((cfg.errorOf? b).map errorInstr).getD (.rxByte b)

/-- The decoder: total on everything that can be presented, rejecting by name. -/
def decode (cfg : Cfg) : Presented → Except Reject Instr
  | .request w x => decodeRequest w x
  | .wire c b => .ok (decodeWire cfg c b)

/-! ### The encoder (R61, R62, R65 to R68, R85; R76, R81, R142) -/

/-- What is presented for an instruction. -/
def encode (cfg : Cfg) : Instr → Presented
  | .reset => .request (mkWord OpName.reset.bits false 0#8) .absent
  | .rxByte b => .request (mkWord OpName.rxByte.bits false b) .absent
  | .encState st => .request (mkWord OpName.encState.bits false (0#6 ++ st.sel)) .absent
  | .encError esel => .request (mkWord OpName.encError.bits false (0#5 ++ esel)) .absent
  | .encRpcResponse ic c f => .request (mkWord OpName.encRpcResponse.bits ic (0#6 ++ c.sel)) (.fields f)
  | .checksum d => .request (mkWord OpName.checksum.bits false 0#8) (.bytes d)
  | .decodeRpcCommand pl => .request (mkWord OpName.decodeRpcCommand.bits false 0#8) (.bytes pl)
  | .reservedOp bits => .request (OpName.reservedOp.bits ++ bits) .absent
  | .frameCurrentState => .wire .frameType cfg.typeCurrentState
  | .frameErrorState => .wire .frameType cfg.typeErrorState
  | .frameRpcCommand => .wire .frameType cfg.typeRpcCommand
  | .frameRpcResponse => .wire .frameType cfg.typeRpcResponse
  | .cmdWifiSettings => .wire .command cfg.cmdWifiSettings
  | .cmdGetCurrentState => .wire .command cfg.cmdGetCurrentState
  | .cmdGetDeviceInfo => .wire .command cfg.cmdGetDeviceInfo
  | .cmdGetWifiNetworks => .wire .command cfg.cmdGetWifiNetworks
  | .cmdUnknown id => .wire .command id
  | .stateStopped => .wire .state cfg.stateStopped
  | .stateAuthorized => .wire .state cfg.stateAuthorized
  | .stateProvisioning => .wire .state cfg.stateProvisioning
  | .stateProvisioned => .wire .state cfg.stateProvisioned
  | .errorNone => .wire .error cfg.errNone
  | .errorInvalidRpc => .wire .error cfg.errInvalidRpc
  | .errorUnknownRpc => .wire .error cfg.errUnknownRpc
  | .errorUnableToConnect => .wire .error cfg.errUnableToConnect
  | .errorNotAuthorized => .wire .error cfg.errNotAuthorized

/-! ### Bits as the opcode table numbers them -/

/-- R68: the empty side operand of the kind a word's OP takes. -/
def emptySide (w : ReqWord) : SideOperand :=
  match opOf w with
  | .reset => .absent
  | .rxByte => .absent
  | .encState => .absent
  | .encError => .absent
  | .encRpcResponse => .fields []
  | .checksum => .bytes []
  | .decodeRpcCommand => .bytes []
  | .reservedOp => .absent

/-- The bits of a table row as they are presented. A row of 16 bits is a request word with an empty side operand. A
row of 8 bits is a wire byte; the bits alone do not say which table it is a code of (0x01 is a type code, a
command id, an error code), so it is read in the order the receive path meets the tables: a type code if it is
one (offset 7), else a command id (payload offset 0) (log entries 12 and 13). -/
def presentTableWord (cfg : Cfg) (nbits w : Nat) : Presented :=
  if nbits ≤ 8 then
    let b : Byte := BitVec.ofNat 8 w
    .wire (if (cfg.typeOf? b).isSome then .frameType else .command) b
  else
    let r : ReqWord := BitVec.ofNat 16 w
    .request r (emptySide r)

/-- The instruction the decoder reads from a table word, under DP (the profile whose values the table lists). -/
def decodeTableWord (nbits w : Nat) : Option Instr :=
  match decode Cfg.dp (presentTableWord Cfg.dp nbits w) with
  | .ok i => some i
  | .error _ => none

/-! ### The opcode table (R87) -/

/-- The table's name for an instruction. -/
def Instr.mnemonic : Instr → String
  | .reset => "RESET"
  | .rxByte _ => "RX_BYTE"
  | .encState _ => "ENC_STATE"
  | .encError _ => "ENC_ERROR"
  | .encRpcResponse _ _ _ => "ENC_RPC_RESPONSE"
  | .checksum _ => "CHECKSUM"
  | .decodeRpcCommand _ => "DECODE_RPC_COMMAND"
  | .reservedOp _ => "RESERVED_OP"
  | .frameCurrentState => "FRAME_CURRENT_STATE"
  | .frameErrorState => "FRAME_ERROR_STATE"
  | .frameRpcCommand => "FRAME_RPC_COMMAND"
  | .frameRpcResponse => "FRAME_RPC_RESPONSE"
  | .cmdWifiSettings => "CMD_WIFI_SETTINGS"
  | .cmdGetCurrentState => "CMD_GET_CURRENT_STATE"
  | .cmdGetDeviceInfo => "CMD_GET_DEVICE_INFO"
  | .cmdGetWifiNetworks => "CMD_GET_WIFI_NETWORKS"
  | .cmdUnknown _ => "CMD_UNKNOWN"
  | .stateStopped => "STATE_STOPPED"
  | .stateAuthorized => "STATE_AUTHORIZED"
  | .stateProvisioning => "STATE_PROVISIONING"
  | .stateProvisioned => "STATE_PROVISIONED"
  | .errorNone => "ERROR_NONE"
  | .errorInvalidRpc => "ERROR_INVALID_RPC"
  | .errorUnknownRpc => "ERROR_UNKNOWN_RPC"
  | .errorUnableToConnect => "ERROR_UNABLE_TO_CONNECT"
  | .errorNotAuthorized => "ERROR_NOT_AUTHORIZED"

/-- R87: a request OP's `mask` and `match` in opcode_table.json. -/
def OpName.mask : OpName → ReqWord
  | .reset => 0xFFFF#16
  | .rxByte => 0xFF00#16
  | .encState => 0xFFFC#16
  | .encError => 0xFFF8#16
  | .encRpcResponse => 0xFEFC#16
  | .checksum => 0xFFFF#16
  | .decodeRpcCommand => 0xFFFF#16
  | .reservedOp => 0xE000#16

/-- R87: see `OpName.mask`. -/
def OpName.pattern : OpName → ReqWord
  | .reset => 0x0000#16
  | .rxByte => 0x2000#16
  | .encState => 0x4000#16
  | .encError => 0x6000#16
  | .encRpcResponse => 0x8000#16
  | .checksum => 0xA000#16
  | .decodeRpcCommand => 0xC000#16
  | .reservedOp => 0xE000#16

/-- R87: the value a wire-code row's `match` lists for DP; CMD_UNKNOWN has mask 0 and no value. -/
def Instr.dpCode : Instr → Option Byte
  | .frameCurrentState => some 0x01#8
  | .frameErrorState => some 0x02#8
  | .frameRpcCommand => some 0x03#8
  | .frameRpcResponse => some 0x04#8
  | .cmdWifiSettings => some 0x01#8
  | .cmdGetCurrentState => some 0x02#8
  | .cmdGetDeviceInfo => some 0x03#8
  | .cmdGetWifiNetworks => some 0x04#8
  | .stateStopped => some 0x00#8
  | .stateAuthorized => some 0x02#8
  | .stateProvisioning => some 0x03#8
  | .stateProvisioned => some 0x04#8
  | .errorNone => some 0x00#8
  | .errorInvalidRpc => some 0x01#8
  | .errorUnknownRpc => some 0x02#8
  | .errorUnableToConnect => some 0x03#8
  | .errorNotAuthorized => some 0x04#8
  | .cmdUnknown _ => none
  | .reset => none
  | .rxByte _ => none
  | .encState _ => none
  | .encError _ => none
  | .encRpcResponse _ _ _ => none
  | .checksum _ => none
  | .decodeRpcCommand _ => none
  | .reservedOp _ => none

/-- The OP of a request instruction; none for a wire-code row. -/
def Instr.op? : Instr → Option OpName
  | .reset => some .reset
  | .rxByte _ => some .rxByte
  | .encState _ => some .encState
  | .encError _ => some .encError
  | .encRpcResponse _ _ _ => some .encRpcResponse
  | .checksum _ => some .checksum
  | .decodeRpcCommand _ => some .decodeRpcCommand
  | .reservedOp _ => some .reservedOp
  | .frameCurrentState => none
  | .frameErrorState => none
  | .frameRpcCommand => none
  | .frameRpcResponse => none
  | .cmdWifiSettings => none
  | .cmdGetCurrentState => none
  | .cmdGetDeviceInfo => none
  | .cmdGetWifiNetworks => none
  | .cmdUnknown _ => none
  | .stateStopped => none
  | .stateAuthorized => none
  | .stateProvisioning => none
  | .stateProvisioned => none
  | .errorNone => none
  | .errorInvalidRpc => none
  | .errorUnknownRpc => none
  | .errorUnableToConnect => none
  | .errorNotAuthorized => none

end Sys2Proof
end

