-- ==== Sys2Proof/Machine/State.lean ====
section
/-! DEFINITION. The IFPC's state as plain data (R20 to R33), the response record (R69 to R71), the reasons a step
can stop, and the state after reset (R33, R270). -/

namespace Sys2Proof.Machine

/-- R70: the outcome codes that are produced. -/
inductive Status where
  | accepted | rejMagic | rejVersion | rejType | checksumError | decodeError | overflow | command | done
  deriving DecidableEq, Repr

/-- R71: a decoded command record. -/
structure Cmd where
  kind : CommandKind
  id : Byte
  ssid : Bytes
  password : Bytes
  deriving DecidableEq, Repr

/-- R140: the one error of the payload decoder. -/
inductive ParseError where
  | invalidRpc
  deriving DecidableEq, Repr

/-- R69: the response record. -/
structure Response where
  status : Status
  consumed : Bool
  data : Bytes
  cmd : Option Cmd
  deriving DecidableEq, Repr

/-- Why the machine stops. -/
inductive Fault where
  /-- Raised by `step` in a state whose `fault` mark is set: R32, R240, "has no further step". Safe. -/
  | requestFault (r : RequestFaultReason)
  /-- Raised by RX_BYTE and the wire-code rows when the parser reads an index of `B` that nothing has written. R35:
  this happens in no reachable state; only in states that break the invariant R26. Safe (log entry 6). -/
  | unwrittenByte
  deriving DecidableEq, Repr

/-- Why a step has no meaning. -/
inductive Refusal where
  /-- An instruction that has no meaning yet. Safe. -/
  | notModelled (mnemonic : String)
  /-- Raised by `step` when the configuration breaks R15: "A model refuses a Cfg that fails this check". Safe. -/
  | illFormedCfg
  /-- Raised by `step` for a request whose side operand is not of the kind R68 gives its OP. Safe (log entry 10). -/
  | sideOperandMismatch
  deriving DecidableEq, Repr

/-- R40: the frame buffer's bytes by index, indexes strictly rising; an unlisted index is unwritten (log entry 6). -/
abbrev Memory := List Host.Cell

/-- R20: the whole state, with the static parameters and the two sides of the request interface. -/
structure State where
  /-- R7: the static parameters, which no step changes (log entry 1). -/
  cfg : Cfg
  /-- R22: the parser position. -/
  p : Nat
  /-- R23: the running additive sum. -/
  sum : Byte
  /-- R24: the frame buffer `B`. -/
  buf : Memory
  /-- R32: the model's fault mark, with the reason R237 reports; `none` is the mark false (log entry 7). -/
  fault : Option RequestFaultReason
  /-- R60: the requests presented and not yet taken, oldest first (the model's own field, log entry 3). -/
  requests : List Presented
  /-- R69: the responses returned, oldest first (the model's own field, log entry 5). -/
  responses : List Response
  deriving DecidableEq, Repr

/-- R33, R270: the power-on state. The parameters are profile DP's (log entry 2). -/
def State.reset : State where
  cfg := Cfg.dp
  p := 0
  sum := 0#8
  buf := []
  fault := none
  requests := []
  responses := []

end Sys2Proof.Machine
end

