-- ==== Sys2Proof/Machine/Flags.lean ====
section
/-! DEFINITION. The two status fields of a response: the outcome code (R70) and the `consumed` flag (R181). The IFPC has
no flag that lives between requests (R27). -/

namespace Sys2Proof.Machine

/-- R70: the 4-bit outcome code. -/
def Status.code : Status → BitVec 4
  | .accepted => 0#4
  | .rejMagic => 1#4
  | .rejVersion => 2#4
  | .rejType => 3#4
  | .checksumError => 4#4
  | .decodeError => 5#4
  | .overflow => 6#4
  | .command => 7#4
  | .done => 8#4

/-- R181: `consumed` of an RX_BYTE response: the byte was accepted, or it completed a command of a known kind. -/
def consumedFlag (st : Status) (cmd : Option Cmd) : Bool :=
  match st with
  | .accepted => true
  | .command => cmd.elim false fun c => c.kind != .unknown
  | .rejMagic => false
  | .rejVersion => false
  | .rejType => false
  | .checksumError => false
  | .decodeError => false
  | .overflow => false
  | .done => false

/-- R183: the response of RX_BYTE; its data is always empty. -/
def rxResponse (st : Status) (cmd : Option Cmd) : Response :=
  { status := st, consumed := consumedFlag st cmd, data := [], cmd := cmd }

/-- R69: the response of a request other than RX_BYTE; `consumed` is 0. -/
def plainResponse (st : Status) (data : Bytes) (cmd : Option Cmd) : Response :=
  { status := st, consumed := false, data := data, cmd := cmd }

end Sys2Proof.Machine
end

