-- ==== Sys2Proof/Machine/Ops.lean ====
section
/-! DEFINITION. The named operations every meaning is made of: reading and writing the frame buffer (R24, R45),
answering a request (R69), the end of a frame attempt (R179), storing a byte (R183), raising a request fault (R240),
and taking the next request (R60). There is no return from an error (R239). -/

namespace Sys2Proof.Machine

/-! ### The frame buffer (R40, R45) -/

/-- The canonical form: indexes strictly rising. -/
abbrev Memory.wf (m : Memory) : Prop := m.Pairwise fun x y => x.1 < y.1

/-- R17: `MemRead(i, 1)`; `none` where nothing has been written. -/
def Memory.read : Memory → Nat → Option Byte
  | [], _ => none
  | (a, v) :: m, i => if a = i then some v else Memory.read m i

/-- R17: `MemWrite(i, 1, v)`, keeping the canonical form. -/
def Memory.write : Memory → Nat → Byte → Memory
  | [], i, v => [(i, v)]
  | (a, x) :: m, i, v =>
    if i < a then (i, v) :: (a, x) :: m
    else if i = a then (i, v) :: m
    else (a, x) :: Memory.write m i v

/-- R45: `n` single-byte reads from index `i` on; `none` if one of them is unwritten. -/
def Memory.readRange (m : Memory) : Nat → Nat → Option Bytes
  | _, 0 => some []
  | i, n + 1 =>
    match m.read i, Memory.readRange m (i + 1) n with
    | some b, some bs => some (b :: bs)
    | _, _ => none

/-! ### Answering, ending, storing -/

/-- R69: the request's response record is returned. -/
def State.respond (r : Response) (s : State) : State :=
  { s with responses := s.responses ++ [r] }

/-- R179: `p <- 0; sum <- 0`, `B` not cleared. -/
def State.clearAttempt (s : State) : State :=
  { s with p := 0, sum := 0#8 }

/-- R179, R238: an RX_BYTE outcome that ends the attempt. -/
def State.endAttempt (st : Status) (cmd : Option Cmd) (s : State) : State :=
  s.clearAttempt.respond (rxResponse st cmd)

/-- R183, STORE, with the capacity test of R180. -/
def State.storeByte (b : Byte) (s : State) : State :=
  if s.cfg.cap ≤ s.p then s.endAttempt .overflow none
  else
    { s with p := s.p + 1, sum := s.sum + b, buf := s.buf.write s.p b }.respond (rxResponse .accepted none)

/-! ### Request faults (R240) and the next request (R60) -/

/-- R240: `raise RequestFault(reason)`: no response, `p`, `sum` and `B` unchanged, the mark set. -/
def State.raiseRequestFault (r : RequestFaultReason) (s : State) : State :=
  { s with fault := some r }

/-- R60: the next request is taken from those presented and decoded; `none` while nothing is presented. -/
def State.fetch (s : State) : Option (Except Reject Instr × State) :=
  match s.requests with
  | [] => none
  | x :: rest => some (decode s.cfg x, { s with requests := rest })

/-- R83: what a presented word that is no instruction does. -/
def rejectRequest (r : Reject) (s : State) : Host.Outcome State Fault Refusal :=
  match r with
  | .requestFault reason => .next (s.raiseRequestFault reason)
  | .sideOperand => .refused .sideOperandMismatch

/-- R60: present one more request, to be taken next. -/
def State.presentNext (x : Presented) (s : State) : State :=
  { s with requests := x :: s.requests }

end Sys2Proof.Machine
end

