-- ==== Sys2Proof/Machine/Operands.lean ====
section
/-! DEFINITION. Operand forms and byte-sequence functions of the Frame Codec: the checksum (R100), the frame (R18,
R72), the RPC response payload (R79, R80, R107 to R111), the error selector (R66), the RPC command decoder
(R140 to R148), and the spec's pseudo-requests (R86). All are pure functions of their operands and `Cfg` (R50). -/

namespace Sys2Proof.Machine

/-- R100: the sum over the integers, reduced mod 256. -/
def sum8 (x : Bytes) : Byte := BitVec.ofNat 8 (x.map BitVec.toNat).sum

/-- R18: `frame_bytes(t, P)`: every byte of a frame but the checksum. -/
def frameBytes (cfg : Cfg) (t : FrameType) (pl : Bytes) : Bytes :=
  magic ++ [cfg.version, cfg.typeCode t, BitVec.ofNat 8 pl.length] ++ pl

/-- R72: a frame with its checksum. -/
def withChecksum (f : Bytes) : Bytes := f ++ [sum8 f]

/-- R66: `esel`; 5..7 select nothing. -/
def errorOfSel (esel : BitVec 3) : Option ErrorCode :=
  match esel.toNat with
  | 0 => some .none
  | 1 => some .invalidRpc
  | 2 => some .unknownRpc
  | 3 => some .unableToConnect
  | 4 => some .notAuthorized
  | _ => none

/-- R108: TOTAL_LEN over the unbounded naturals. -/
def totalLen (f : List Bytes) : Nat := (f.map fun x => 1 + x.length).sum

/-- R109: FIELD_LEN and the field's bytes, field by field, in the order given. -/
def fieldBytes (f : List Bytes) : Bytes := f.flatMap fun x => BitVec.ofNat 8 x.length :: x

/-- R79, R107: the payload of an RPC response. -/
def responsePayload (cfg : Cfg) (c : Command) (f : List Bytes) : Bytes :=
  [cfg.cmdCode c, BitVec.ofNat 8 (totalLen f)] ++ fieldBytes f

/-- R107, R112: the response frame, its checksum present when `ic` is. -/
def responseFrame (cfg : Cfg) (ic : Bool) (c : Command) (f : List Bytes) : Bytes :=
  if ic then withChecksum (frameBytes cfg .rpcResponse (responsePayload cfg c f))
  else frameBytes cfg .rpcResponse (responsePayload cfg c f)

/-- R141, R144 to R147: the WIFI_SETTINGS part of the decoder, on a payload whose id is `id`. -/
def decodeWifi (id : Byte) (pl : Bytes) : Except ParseError Cmd :=
  match pl[1]? with
  | none => .error .invalidRpc
  | some a =>
    if pl.length < 2 + a.toNat then .error .invalidRpc
    else
      match pl[2]? with
      | none => .error .invalidRpc
      | some sl =>
        if pl.length < 3 + sl.toNat then .error .invalidRpc
        else if sl.toNat = 0 then .error .invalidRpc
        else
          match pl[3 + sl.toNat]? with
          | none => .error .invalidRpc
          | some q =>
            if pl.length < 4 + sl.toNat + q.toNat then .error .invalidRpc
            else
              .ok { kind := .wifiSettings, id := id, ssid := (pl.drop 3).take sl.toNat,
                    password := (pl.drop (4 + sl.toNat)).take q.toNat }

/-- R141: `DecodeRpcCommand`. -/
def decodeRpc (cfg : Cfg) (pl : Bytes) : Except ParseError Cmd :=
  match pl[0]? with
  | none => .error .invalidRpc
  | some id =>
    if cfg.kindOf id ≠ .wifiSettings then .ok { kind := cfg.kindOf id, id := id, ssid := [], password := [] }
    else decodeWifi id pl

/-! ### Pseudo-requests (R86) -/

/-- `rx.seq`. -/
def rxSeq (cfg : Cfg) (bs : Bytes) : List Presented := bs.map fun b => encode cfg (.rxByte b)

/-- The RPC_COMMAND frame a host sends for a payload. -/
def commandFrame (cfg : Cfg) (pl : Bytes) : Bytes := withChecksum (frameBytes cfg .rpcCommand pl)

/-- `rx.frame`. -/
def rxFrame (cfg : Cfg) (pl : Bytes) : List Presented := rxSeq cfg (commandFrame cfg pl)

/-- `rx.cmd`. -/
def rxCmd (cfg : Cfg) (c : Command) : List Presented := rxFrame cfg [cfg.cmdCode c, 0x00#8]

/-- R78: the WIFI_SETTINGS payload of a well-formed host. -/
def wifiPayload (cfg : Cfg) (ssid pw : Bytes) : Bytes :=
  [cfg.cmdWifiSettings, BitVec.ofNat 8 (2 + ssid.length + pw.length), BitVec.ofNat 8 ssid.length] ++ ssid
    ++ [BitVec.ofNat 8 pw.length] ++ pw

/-- `rx.wifi`. -/
def rxWifi (cfg : Cfg) (ssid pw : Bytes) : List Presented := rxFrame cfg (wifiPayload cfg ssid pw)

end Sys2Proof.Machine
end

