-- ==== Sys2Proof/Machine/Codec.lean ====
section
/-! DEFINITION. The Frame Codec's requests: ENC_STATE (R104), ENC_ERROR (R106), ENC_RPC_RESPONSE (R107), CHECKSUM
(R101), DECODE_RPC_COMMAND (R149). None touches `p`, `sum` or `B` (R50). -/

namespace Sys2Proof.Machine

/-- R104: a CURRENT_STATE frame, checksum always present. -/
def execEncState (st : ProvState) (s : State) : Host.Outcome State Fault Refusal :=
  .next (s.respond (plainResponse .done (withChecksum (frameBytes s.cfg .currentState [s.cfg.stateCode st])) none))

/-- R106: an ERROR_STATE frame, checksum always present; a reserved selector is a request fault. -/
def execEncError (esel : BitVec 3) (s : State) : Host.Outcome State Fault Refusal :=
  match errorOfSel esel with
  | none => .next (s.raiseRequestFault .reservedSelector)
  | some e =>
    .next (s.respond (plainResponse .done (withChecksum (frameBytes s.cfg .errorState [s.cfg.errorCode e])) none))

/-- R107: an RPC_RESPONSE frame; a payload over 255 bytes is a request fault (R110). -/
def execEncRpcResponse (ic : Bool) (c : Command) (f : List Bytes) (s : State) : Host.Outcome State Fault Refusal :=
  if 255 < 2 + totalLen f then .next (s.raiseRequestFault .payloadTooLong)
  else .next (s.respond (plainResponse .done (responseFrame s.cfg ic c f) none))

/-- R101: the checksum of `D` as a one-byte sequence. -/
def execChecksum (d : Bytes) (s : State) : Host.Outcome State Fault Refusal :=
  .next (s.respond (plainResponse .done [sum8 d] none))

/-- R149: the decoder on `P`; a payload over 255 bytes is a request fault. -/
def execDecodeRpcCommand (pl : Bytes) (s : State) : Host.Outcome State Fault Refusal :=
  if 255 < pl.length then .next (s.raiseRequestFault .payloadTooLong)
  else
    match decodeRpc s.cfg pl with
    | .ok c => .next (s.respond (plainResponse .command [] (some c)))
    | .error _ => .next (s.respond (plainResponse .decodeError [] none))

end Sys2Proof.Machine
end

