-- ==== Sys2Proof/Machine/Control.lean ====
section
/-! DEFINITION. The control requests RESET (R210) and the reserved OP (R211). -/

namespace Sys2Proof.Machine

/-- R210: RESET. `B` is unchanged and the `fault` mark is not cleared (R32). -/
def execReset (s : State) : Host.Outcome State Fault Refusal :=
  .next (s.clearAttempt.respond (plainResponse .done [] none))

/-- R211: the reserved OP; no bit of the word but OP matters. -/
def execReservedOp (_bits : BitVec 13) (s : State) : Host.Outcome State Fault Refusal :=
  .next (s.raiseRequestFault .reservedOp)

end Sys2Proof.Machine
end

