-- ==== Sys2Proof/Machine/Receive.lean ====
section
/-! DEFINITION. The Stream Parser: RX_BYTE (R170 to R184). -/

namespace Sys2Proof.Machine

/-- R178: the outcome of a frame whose checksum matched, from its payload. -/
def State.completeFrame (pl : Bytes) (s : State) : State :=
  match decodeRpc s.cfg pl with
  | .error _ => s.endAttempt .decodeError none
  | .ok c => s.endAttempt .command (some c)

/-- R176 to R178: a byte at position 9 or later, with `L` the length byte. -/
def State.receiveBody (l : Byte) (b : Byte) (s : State) : Host.Outcome State Fault Refusal :=
  if s.p ≤ 8 + l.toNat then .next (s.storeByte b)
  else if b ≠ s.sum then .next (s.endAttempt .checksumError none)
  else
    match s.buf.readRange 9 l.toNat with
    | none => .fault .unwrittenByte
    | some pl => .next (s.completeFrame pl)

/-- R183: one received byte. -/
def State.receiveByte (b : Byte) (s : State) : Host.Outcome State Fault Refusal :=
  if s.p ≤ 5 then
    if magic[s.p]? = some b then .next (s.storeByte b) else .next (s.endAttempt .rejMagic none)
  else if s.p = 6 then
    if b = s.cfg.version then .next (s.storeByte b) else .next (s.endAttempt .rejVersion none)
  else if s.p = 7 then
    if b = s.cfg.typeRpcCommand then .next (s.storeByte b) else .next (s.endAttempt .rejType none)
  else if s.p = 8 then .next (s.storeByte b)
  else
    match s.buf.read 8 with
    | none => .fault .unwrittenByte
    | some l => s.receiveBody l b

/-- R170: RX_BYTE. -/
def execRxByte (b : Byte) (s : State) : Host.Outcome State Fault Refusal := s.receiveByte b

end Sys2Proof.Machine
end

