-- ==== Sys2Proof/Machine/Wire.lean ====
section
/-! DEFINITION. The wire-code rows of the opcode table (R76, R81, R142). Such a row is no request: it is the value of
one byte of the wire format, fixed by a `Cfg` parameter (R87). What the block does with a wire byte by itself is
receive it, and the parser classifies a received byte by its position alone (R171): so each row's meaning is the
arrival of its byte at the receive half (log entry 11). What the block SENDS carries the same codes inside the
frames that ENC_STATE, ENC_ERROR and ENC_RPC_RESPONSE build. -/

namespace Sys2Proof.Machine

/-- R76, R84: the type byte of a device-to-host frame; at offset 7 it is rejected (R174). -/
def execFrameCurrentState (s : State) : Host.Outcome State Fault Refusal :=
  s.receiveByte (s.cfg.typeCode .currentState)

/-- R76, R84: the type byte of a device-to-host frame; at offset 7 it is rejected (R174). -/
def execFrameErrorState (s : State) : Host.Outcome State Fault Refusal :=
  s.receiveByte (s.cfg.typeCode .errorState)

/-- R76: the only type RX_BYTE accepts at offset 7 (R174). -/
def execFrameRpcCommand (s : State) : Host.Outcome State Fault Refusal :=
  s.receiveByte (s.cfg.typeCode .rpcCommand)

/-- R76, R84: the type byte of a device-to-host frame; at offset 7 it is rejected (R174). -/
def execFrameRpcResponse (s : State) : Host.Outcome State Fault Refusal :=
  s.receiveByte (s.cfg.typeCode .rpcResponse)

/-- R142: the COMMAND_ID byte of WIFI_SETTINGS. -/
def execCmdWifiSettings (s : State) : Host.Outcome State Fault Refusal :=
  s.receiveByte (s.cfg.cmdCode .wifiSettings)

/-- R142: the COMMAND_ID byte of GET_CURRENT_STATE. -/
def execCmdGetCurrentState (s : State) : Host.Outcome State Fault Refusal :=
  s.receiveByte (s.cfg.cmdCode .getCurrentState)

/-- R142: the COMMAND_ID byte of GET_DEVICE_INFO. -/
def execCmdGetDeviceInfo (s : State) : Host.Outcome State Fault Refusal :=
  s.receiveByte (s.cfg.cmdCode .getDeviceInfo)

/-- R142: the COMMAND_ID byte of GET_WIFI_NETWORKS. -/
def execCmdGetWifiNetworks (s : State) : Host.Outcome State Fault Refusal :=
  s.receiveByte (s.cfg.cmdCode .getWifiNetworks)

/-- R142: a COMMAND_ID byte that is none of the four codes. -/
def execCmdUnknown (id : Byte) (s : State) : Host.Outcome State Fault Refusal :=
  s.receiveByte id

/-- R81, R13: the STOPPED code, which ENC_STATE sends as a payload byte (R104). -/
def execStateStopped (s : State) : Host.Outcome State Fault Refusal :=
  s.receiveByte (s.cfg.stateCode .stopped)

/-- R81, R13: the AUTHORIZED code. -/
def execStateAuthorized (s : State) : Host.Outcome State Fault Refusal :=
  s.receiveByte (s.cfg.stateCode .authorized)

/-- R81, R13: the PROVISIONING code. -/
def execStateProvisioning (s : State) : Host.Outcome State Fault Refusal :=
  s.receiveByte (s.cfg.stateCode .provisioning)

/-- R81, R13: the PROVISIONED code. -/
def execStateProvisioned (s : State) : Host.Outcome State Fault Refusal :=
  s.receiveByte (s.cfg.stateCode .provisioned)

/-- R81, R14: the NONE code, which ENC_ERROR sends as a payload byte (R106). -/
def execErrorNone (s : State) : Host.Outcome State Fault Refusal :=
  s.receiveByte (s.cfg.errorCode .none)

/-- R81, R14: the INVALID_RPC code. -/
def execErrorInvalidRpc (s : State) : Host.Outcome State Fault Refusal :=
  s.receiveByte (s.cfg.errorCode .invalidRpc)

/-- R81, R14: the UNKNOWN_RPC code. -/
def execErrorUnknownRpc (s : State) : Host.Outcome State Fault Refusal :=
  s.receiveByte (s.cfg.errorCode .unknownRpc)

/-- R81, R14: the UNABLE_TO_CONNECT code. -/
def execErrorUnableToConnect (s : State) : Host.Outcome State Fault Refusal :=
  s.receiveByte (s.cfg.errorCode .unableToConnect)

/-- R81, R14: the NOT_AUTHORIZED code. -/
def execErrorNotAuthorized (s : State) : Host.Outcome State Fault Refusal :=
  s.receiveByte (s.cfg.errorCode .notAuthorized)

end Sys2Proof.Machine
end

