-- ==== Sys2Proof/Machine/Dispatch.lean ====
section
/-! DEFINITION. One arm per row of spec/opcode_table.json. -/

namespace Sys2Proof.Machine

def exec (i : Instr) (s : State) : Host.Outcome State Fault Refusal :=
  match i with
  | .reset => Sys2Proof.Machine.execReset s
  | .rxByte b => Sys2Proof.Machine.execRxByte b s
  | .encState st => Sys2Proof.Machine.execEncState st s
  | .encError esel => Sys2Proof.Machine.execEncError esel s
  | .encRpcResponse ic c f => Sys2Proof.Machine.execEncRpcResponse ic c f s
  | .checksum d => Sys2Proof.Machine.execChecksum d s
  | .decodeRpcCommand pl => Sys2Proof.Machine.execDecodeRpcCommand pl s
  | .reservedOp bits => Sys2Proof.Machine.execReservedOp bits s
  | .frameCurrentState => Sys2Proof.Machine.execFrameCurrentState s
  | .frameErrorState => Sys2Proof.Machine.execFrameErrorState s
  | .frameRpcCommand => Sys2Proof.Machine.execFrameRpcCommand s
  | .frameRpcResponse => Sys2Proof.Machine.execFrameRpcResponse s
  | .cmdWifiSettings => Sys2Proof.Machine.execCmdWifiSettings s
  | .cmdGetCurrentState => Sys2Proof.Machine.execCmdGetCurrentState s
  | .cmdGetDeviceInfo => Sys2Proof.Machine.execCmdGetDeviceInfo s
  | .cmdGetWifiNetworks => Sys2Proof.Machine.execCmdGetWifiNetworks s
  | .cmdUnknown id => Sys2Proof.Machine.execCmdUnknown id s
  | .stateStopped => Sys2Proof.Machine.execStateStopped s
  | .stateAuthorized => Sys2Proof.Machine.execStateAuthorized s
  | .stateProvisioning => Sys2Proof.Machine.execStateProvisioning s
  | .stateProvisioned => Sys2Proof.Machine.execStateProvisioned s
  | .errorNone => Sys2Proof.Machine.execErrorNone s
  | .errorInvalidRpc => Sys2Proof.Machine.execErrorInvalidRpc s
  | .errorUnknownRpc => Sys2Proof.Machine.execErrorUnknownRpc s
  | .errorUnableToConnect => Sys2Proof.Machine.execErrorUnableToConnect s
  | .errorNotAuthorized => Sys2Proof.Machine.execErrorNotAuthorized s

end Sys2Proof.Machine
end

