-- ==== Sys2Proof/Machine/Step.lean ====
section
/-! DEFINITION. One step: take the next request, decode it, run it (R47, R60). -/

namespace Sys2Proof.Machine

/-- R47, R60: one request. A configuration that breaks R15 is refused; a state whose fault mark is set has no step (R32,
R240); while nothing is presented the block waits (R282, I13, log entry 4). -/
def step (s : State) : Host.Outcome State Fault Refusal :=
  if s.cfg.WellFormed then
    match s.fault with
    | some r => .fault (.requestFault r)
    | none =>
      match s.fetch with
      | none => .next s
      | some (.ok i, t) => exec i t
      | some (.error r, t) => rejectRequest r t
  else .refused .illFormedCfg

/-- The table word presented to the block, to be taken by the very next step (log entries 3, 12 and 13). -/
def State.withFetchWord (s : State) (nbits w : Nat) : State :=
  s.presentNext (presentTableWord s.cfg nbits w)

end Sys2Proof.Machine
end

