-- ==== Sys2Proof/Safety.lean ====
section
/-! DEFINITION. The terms claims are stated in: the invariants between requests (R22, R23, R26), what storing a byte and
ending an attempt leave (R179, R183), a run of received bytes, and agreement of two states below `p` (R31). -/

namespace Sys2Proof.Machine

/-- R22, R23, R26: what holds between requests, for a well-formed `Cfg` (R15). -/
structure State.Inv (s : State) : Prop where
  /-- R15. -/
  cfgWf : s.cfg.WellFormed
  /-- The buffer's canonical form. -/
  bufWf : s.buf.wf
  /-- R24: indexes 0..CAP-1. -/
  bufBound : ∀ c ∈ s.buf, c.1 < s.cfg.cap
  /-- R26(a). -/
  posBound : s.p ≤ 264
  /-- R22, R23: `B[0..p-1]` is written and `sum = sum8(B[0..p-1])`. -/
  sumOk : (s.buf.readRange 0 s.p).map sum8 = some s.sum
  /-- R26(b). -/
  lenBound : 9 ≤ s.p → ∀ l, s.buf.read 8 = some l → s.p ≤ 9 + l.toNat
  /-- R26(c). -/
  magicOk : ∀ i, i < min s.p 6 → s.buf.read i = magic[i]?
  /-- R26(d). -/
  versionOk : 7 ≤ s.p → s.buf.read 6 = some s.cfg.version
  /-- R26(e). -/
  typeOk : 8 ≤ s.p → s.buf.read 7 = some s.cfg.typeRpcCommand

/-- R171: the byte passes the check of its position and is to be stored. -/
def State.ToStore (s : State) (b : Byte) : Prop :=
  (s.p ≤ 5 ∧ magic[s.p]? = some b) ∨ (s.p = 6 ∧ b = s.cfg.version) ∨ (s.p = 7 ∧ b = s.cfg.typeRpcCommand) ∨
    s.p = 8 ∨ (9 ≤ s.p ∧ ∃ l, s.buf.read 8 = some l ∧ s.p ≤ 8 + l.toNat)

/-- R183, STORE: `t` is `s` with the byte stored at `p` and ACCEPTED returned, and nothing else changed. -/
structure State.Stored (s : State) (b : Byte) (t : State) : Prop where
  p : t.p = s.p + 1
  sum : t.sum = s.sum + b
  byte : t.buf.read s.p = some b
  others : ∀ a, a ≠ s.p → t.buf.read a = s.buf.read a
  cfg : t.cfg = s.cfg
  fault : t.fault = s.fault
  requests : t.requests = s.requests
  responses : t.responses = s.responses ++ [{ status := .accepted, consumed := true, data := [], cmd := none }]

/-- R179: `s` after an outcome that ends the attempt: `p` and `sum` 0, the response returned, nothing else changed. -/
def State.ended (s : State) (st : Status) (consumed : Bool) (cmd : Option Cmd) : State :=
  { s with
    p := 0
    sum := 0#8
    responses := s.responses ++ [{ status := st, consumed := consumed, data := [], cmd := cmd }] }

/-- R60: bytes received one by one, one RX_BYTE each. -/
def feed : Bytes → State → Host.Outcome State Fault Refusal
  | [], s => .next s
  | b :: bs, s =>
    match exec (.rxByte b) s with
    | .next t => feed bs t
    | .fault r => .fault r
    | .refused r => .refused r

/-- The responses of `n` accepted bytes (R181). -/
def acceptedN (n : Nat) : List Response :=
  List.replicate n { status := .accepted, consumed := true, data := [], cmd := none }

/-- R178, R181: the response a completed frame with payload `pl` gives. -/
def completionResponse (cfg : Cfg) (pl : Bytes) : Response :=
  match decodeRpc cfg pl with
  | .ok c => { status := .command, consumed := c.kind != .unknown, data := [], cmd := some c }
  | .error _ => { status := .decodeError, consumed := false, data := [], cmd := none }

/-- R31: equal `p` and equal `B[0..p-1]`, under one `Cfg` and one mark, with the same requests to come; the rest of `B`
and the responses already returned may differ (`sum` is then equal too, by the invariants). -/
structure State.AgreeBelow (s t : State) : Prop where
  cfg : t.cfg = s.cfg
  p : t.p = s.p
  bytes : ∀ a, a < s.p → t.buf.read a = s.buf.read a
  fault : t.fault = s.fault
  requests : t.requests = s.requests

/-- Two outcomes a consumer cannot tell apart: both go on with the same new responses `rs`, or both stop for the same
reason. -/
def SameOutcome (s t : State) (o o' : Host.Outcome State Fault Refusal) : Prop :=
  (∃ s' t' rs, o = .next s' ∧ o' = .next t' ∧ s'.responses = s.responses ++ rs ∧ t'.responses = t.responses ++ rs) ∨
    (∃ r, o = .fault r ∧ o' = .fault r) ∨ ∃ r, o = .refused r ∧ o' = .refused r

end Sys2Proof.Machine
end

