-- ==== Sys2Proof/Certificates/Slice0/Obligations.lean ====
section
/-! DEFINITION. The statements for the provers. Each docstring names the rules of spec/ it formalises. -/

open Sys2Proof Sys2Proof.Machine

/-! ### Reset and control -/

/-- R33: at power-on and after a RESET request `p` and `sum` are 0; `fault` is false at power-on and RESET leaves it. (`B`
is unspecified there, so nothing is said of it.) -/
def Obligations.ResetValues : Prop :=
  (State.reset.p = 0 ∧ State.reset.sum = 0#8 ∧ State.reset.fault = none) ∧
    ∀ s : State, ∃ t, exec .reset s = .next t ∧ t.p = 0 ∧ t.sum = 0#8 ∧ t.fault = s.fault

/-- R210: RESET, its word, its reserved words, and that it changes nothing but `p`, `sum` and the response. -/
def Obligations.ResetRequestEffect : Prop :=
  (∀ s : State, exec .reset s = .next { s with
      p := 0
      sum := 0#8
      responses := s.responses ++ [{ status := .done, consumed := false, data := [], cmd := none }] }) ∧
    (∀ cfg, decode cfg (.request 0x0000#16 .absent) = .ok .reset) ∧
    ∀ cfg w x, w &&& 0xE000#16 = 0x0000#16 → w ≠ 0x0000#16 →
      decode cfg (.request w x) = .error (.requestFault .reservedBits)

/-- R211: every word with OP = 111 raises RequestFault(RESERVED_OP), and `p`, `sum` and `B` are unchanged. -/
def Obligations.ReservedOpRaisesFault : Prop :=
  ∀ w x, w &&& 0xE000#16 = 0xE000#16 → ∃ bits : BitVec 13,
    (∀ cfg, decode cfg (.request w x) = .ok (.reservedOp bits)) ∧
      ∀ s : State, exec (.reservedOp bits) s = .next { s with fault := some .reservedOp }

/-! ### Checksum and encoders -/

/-- R101: CHECKSUM answers the sum of `D` mod 256 and changes nothing else; its word and its reserved words. -/
def Obligations.ChecksumRequestAnswers : Prop :=
  (∀ (s : State) (d : Bytes), ∃ v : Byte, v.toNat = (d.map BitVec.toNat).sum % 256 ∧
      exec (.checksum d) s = .next { s with
        responses := s.responses ++ [{ status := .done, consumed := false, data := [v], cmd := none }] }) ∧
    (∀ cfg d, decode cfg (.request 0xA000#16 (.bytes d)) = .ok (.checksum d)) ∧
    ∀ cfg w x, w &&& 0xE000#16 = 0xA000#16 → w &&& 0x1FFF#16 ≠ 0 →
      decode cfg (.request w x) = .error (.requestFault .reservedBits)

/-- R103: the checksum (a) detects any single-byte change, (b) does not detect a reordering, (c) does not detect two
changes whose deltas cancel. -/
def Obligations.ChecksumDetectionLaws : Prop :=
  (∀ (x : Bytes) (i : Fin x.length) (y : Byte), y ≠ x[i] → sum8 (x.set i y) ≠ sum8 x) ∧
    (∀ x y : Bytes, x.Perm y → sum8 x = sum8 y) ∧
    ∀ (x : Bytes) (i j : Fin x.length) (d : Byte), i ≠ j →
      sum8 ((x.set i (x[i] + d)).set j (x[j] - d)) = sum8 x

/-- R104: ENC_STATE answers the 11-byte CURRENT_STATE frame of the selected state, its checksum always present, and
changes nothing else; its words and its reserved words. -/
def Obligations.EncodeStateFrame : Prop :=
  (∀ (s : State) (st : ProvState) (v : Byte),
      (st, v) ∈ [(ProvState.stopped, s.cfg.stateStopped), (.authorized, s.cfg.stateAuthorized),
        (.provisioning, s.cfg.stateProvisioning), (.provisioned, s.cfg.stateProvisioned)] →
      ∃ k : Byte, k = sum8 [0x49#8, 0x4D#8, 0x50#8, 0x52#8, 0x4F#8, 0x56#8, s.cfg.version, s.cfg.typeCurrentState, 1#8, v] ∧
        exec (.encState st) s = .next { s with
          responses := s.responses ++ [{
            status := .done
            consumed := false
            data := [0x49#8, 0x4D#8, 0x50#8, 0x52#8, 0x4F#8, 0x56#8, s.cfg.version, s.cfg.typeCurrentState, 1#8, v, k]
            cmd := none }] }) ∧
    (∀ cfg, decode cfg (.request 0x4000#16 .absent) = .ok (.encState .stopped) ∧
      decode cfg (.request 0x4001#16 .absent) = .ok (.encState .authorized) ∧
      decode cfg (.request 0x4002#16 .absent) = .ok (.encState .provisioning) ∧
      decode cfg (.request 0x4003#16 .absent) = .ok (.encState .provisioned)) ∧
    ∀ cfg w x, w &&& 0xE000#16 = 0x4000#16 → w &&& 0x1FFC#16 ≠ 0 →
      decode cfg (.request w x) = .error (.requestFault .reservedBits)

/-- R106: ENC_ERROR answers the 11-byte ERROR_STATE frame of the selected error; a selector of 5..7 raises
RequestFault(RESERVED_SELECTOR) and changes nothing else; its words and its reserved words. -/
def Obligations.EncodeErrorFrame : Prop :=
  (∀ (s : State) (esel : BitVec 3) (v : Byte),
      (esel, v) ∈ [(0#3, s.cfg.errNone), (1#3, s.cfg.errInvalidRpc), (2#3, s.cfg.errUnknownRpc),
        (3#3, s.cfg.errUnableToConnect), (4#3, s.cfg.errNotAuthorized)] →
      ∃ k : Byte, k = sum8 [0x49#8, 0x4D#8, 0x50#8, 0x52#8, 0x4F#8, 0x56#8, s.cfg.version, s.cfg.typeErrorState, 1#8, v] ∧
        exec (.encError esel) s = .next { s with
          responses := s.responses ++ [{
            status := .done
            consumed := false
            data := [0x49#8, 0x4D#8, 0x50#8, 0x52#8, 0x4F#8, 0x56#8, s.cfg.version, s.cfg.typeErrorState, 1#8, v, k]
            cmd := none }] }) ∧
    (∀ (s : State) (esel : BitVec 3), 4 < esel.toNat →
      exec (.encError esel) s = .next { s with fault := some .reservedSelector }) ∧
    (∀ cfg (esel : BitVec 3), decode cfg (.request (0x6000#16 ||| esel.setWidth 16) .absent) = .ok (.encError esel)) ∧
    ∀ cfg w x, w &&& 0xE000#16 = 0x6000#16 → w &&& 0x1FF8#16 ≠ 0 →
      decode cfg (.request w x) = .error (.requestFault .reservedBits)

/-- R105: the closed form of a state or error frame's checksum, for every `Cfg`, and its value under profile DP (whose
codes are general knowledge, log entry 2). -/
def Obligations.StateErrorChecksumClosedForm : Prop :=
  (∀ (cfg : Cfg) (t : FrameType) (v : Byte),
      sum8 (frameBytes cfg t [v]) = 0xDD#8 + cfg.version + cfg.typeCode t + 1#8 + v) ∧
    ∀ v : Byte, sum8 (frameBytes Cfg.dp .currentState [v]) = 0xE0#8 + v ∧
      sum8 (frameBytes Cfg.dp .errorState [v]) = 0xE1#8 + v

/-- R107: ENC_RPC_RESPONSE answers the frame whose payload is the command id, TOTAL_LEN and the fields, with its
checksum exactly when `ic` is set, and changes nothing else; a payload over 255 bytes raises
RequestFault(PAYLOAD_TOO_LONG) and changes nothing else; its words and its reserved words. -/
def Obligations.EncodeRpcResponseFrame : Prop :=
  (∀ (s : State) (ic : Bool) (c : Command) (v : Byte) (f : List Bytes),
      (c, v) ∈ [(Command.getCurrentState, s.cfg.cmdGetCurrentState), (.wifiSettings, s.cfg.cmdWifiSettings),
        (.getDeviceInfo, s.cfg.cmdGetDeviceInfo), (.getWifiNetworks, s.cfg.cmdGetWifiNetworks)] →
      2 + (f.map fun x => 1 + x.length).sum ≤ 255 →
      ∃ out : Bytes,
        out = [0x49#8, 0x4D#8, 0x50#8, 0x52#8, 0x4F#8, 0x56#8, s.cfg.version, s.cfg.typeRpcResponse,
            BitVec.ofNat 8 (2 + (f.map fun x => 1 + x.length).sum), v,
            BitVec.ofNat 8 (f.map fun x => 1 + x.length).sum] ++
          (f.map fun x => BitVec.ofNat 8 x.length :: x).flatten ∧
        exec (.encRpcResponse ic c f) s = .next { s with
          responses := s.responses ++ [{
            status := .done
            consumed := false
            data := if ic then out ++ [sum8 out] else out
            cmd := none }] }) ∧
    (∀ (s : State) (ic : Bool) (c : Command) (f : List Bytes), 255 < 2 + (f.map fun x => 1 + x.length).sum →
      exec (.encRpcResponse ic c f) s = .next { s with fault := some .payloadTooLong }) ∧
    (∀ cfg f (ic : Bool) (c : Command) (n : Nat),
      (c, n) ∈ [(Command.getCurrentState, 0), (.wifiSettings, 1), (.getDeviceInfo, 2), (.getWifiNetworks, 3)] →
      decode cfg (.request (BitVec.ofNat 16 (0x8000 + (if ic then 0x100 else 0) + n)) (.fields f)) =
        .ok (.encRpcResponse ic c f)) ∧
    ∀ cfg w x, w &&& 0xE000#16 = 0x8000#16 → w &&& 0x1EFC#16 ≠ 0 →
      decode cfg (.request w x) = .error (.requestFault .reservedBits)

/-- Derived from R79, R80, R109 and R15: a response payload within the ceiling determines the command and every field, so a
receiver can read back what was encoded. -/
def Obligations.ResponsePayloadDeterminesFields : Prop :=
  ∀ (cfg : Cfg) (c c' : Command) (f g : List Bytes), cfg.WellFormed → 2 + totalLen f ≤ 255 → 2 + totalLen g ≤ 255 →
    responsePayload cfg c f = responsePayload cfg c' g → c = c' ∧ f = g

/-- R115: every frame the encoder emits with a checksum ends in the checksum of the bytes before it, and the block's own
receive path never accepts encoder output: fed from `p = 0`, it is rejected at its type byte. -/
def Obligations.EncoderOutputChecksumAndRejection : Prop :=
  (∀ (i : Instr) (s t : State) (r : Response),
      (∃ st, i = .encState st) ∨ (∃ e, i = .encError e) ∨ (∃ c f, i = .encRpcResponse true c f) →
      exec i s = .next t → t.responses = s.responses ++ [r] → ∃ f, r.data = f ++ [sum8 f]) ∧
    ∀ (i : Instr) (s t u : State) (r : Response),
      (∃ st, i = .encState st) ∨ (∃ e, i = .encError e) ∨ (∃ ic c f, i = .encRpcResponse ic c f) →
      exec i s = .next t → t.responses = s.responses ++ [r] →
      s.cfg.WellFormed → u.cfg = s.cfg → u.p = 0 →
      ∃ v, feed (r.data.take 8) u = .next v ∧ v.p = 0 ∧ v.sum = 0#8 ∧
        v.responses = u.responses ++ acceptedN 7 ++
          [{ status := .rejType, consumed := false, data := [], cmd := none }]

/-- Derived from R82: the lengths of the frames the block sends: 11 bytes for a state or error frame; `11 + TOTAL_LEN` without and
`12 + TOTAL_LEN` with checksum for an RPC response. -/
def Obligations.SentFrameLengths : Prop :=
  (∀ (s : State) (st : ProvState), ∃ r, exec (.encState st) s = .next { s with responses := s.responses ++ [r] } ∧
      r.data.length = 11) ∧
    (∀ (s : State) (esel : BitVec 3), esel.toNat ≤ 4 →
      ∃ r, exec (.encError esel) s = .next { s with responses := s.responses ++ [r] } ∧ r.data.length = 11) ∧
    ∀ (s : State) (ic : Bool) (c : Command) (f : List Bytes), 2 + totalLen f ≤ 255 →
      ∃ r, exec (.encRpcResponse ic c f) s = .next { s with responses := s.responses ++ [r] } ∧
        r.data.length = (if ic then 12 else 11) + totalLen f

/-- R50: the encoder, CHECKSUM and DECODE_RPC_COMMAND requests neither read nor disturb `p`, `sum` or `B`: whatever those
hold, the answer is the same and they come out as they went in. -/
def Obligations.CodecRequestsIgnoreParser : Prop :=
  ∀ (i : Instr) (s : State),
    (∃ st, i = .encState st) ∨ (∃ e, i = .encError e) ∨ (∃ ic c f, i = .encRpcResponse ic c f) ∨
      (∃ d, i = .checksum d) ∨ (∃ pl, i = .decodeRpcCommand pl) →
    ∃ (fr : Option RequestFaultReason) (rs : List Response), ∀ (p : Nat) (sum : Byte) (buf : Memory),
      exec i { s with p := p, sum := sum, buf := buf } =
        .next { s with p := p, sum := sum, buf := buf, fault := fr, responses := s.responses ++ rs }

/-! ### The RPC command decoder -/

/-- R149: DECODE_RPC_COMMAND answers COMMAND with the decoded record, or DECODE_ERROR; a payload over 255 bytes raises
RequestFault(PAYLOAD_TOO_LONG); nothing else changes; its word and its reserved words. -/
def Obligations.DecodeRequestAnswers : Prop :=
  (∀ (s : State) (pl : Bytes) (c : Cmd), pl.length ≤ 255 → decodeRpc s.cfg pl = .ok c →
      exec (.decodeRpcCommand pl) s = .next { s with
        responses := s.responses ++ [{ status := .command, consumed := false, data := [], cmd := some c }] }) ∧
    (∀ (s : State) (pl : Bytes) (e : ParseError), pl.length ≤ 255 → decodeRpc s.cfg pl = .error e →
      exec (.decodeRpcCommand pl) s = .next { s with
        responses := s.responses ++ [{ status := .decodeError, consumed := false, data := [], cmd := none }] }) ∧
    (∀ (s : State) (pl : Bytes), 255 < pl.length →
      exec (.decodeRpcCommand pl) s = .next { s with fault := some .payloadTooLong }) ∧
    (∀ cfg pl, decode cfg (.request 0xC000#16 (.bytes pl)) = .ok (.decodeRpcCommand pl)) ∧
    ∀ cfg w x, w &&& 0xE000#16 = 0xC000#16 → w &&& 0x1FFF#16 ≠ 0 →
      decode cfg (.request w x) = .error (.requestFault .reservedBits)

/-- R142, R143: an empty payload fails; an id that is one of the four codes is that command and any other id is UNKNOWN,
a successful decode that carries the raw id; for every kind but WIFI_SETTINGS nothing beyond `P[0]` matters. -/
def Obligations.DecoderCommandKinds : Prop :=
  ∀ cfg : Cfg, cfg.WellFormed →
    decodeRpc cfg [] = .error .invalidRpc ∧
    (∀ rest, decodeRpc cfg (cfg.cmdGetCurrentState :: rest) =
      .ok { kind := .getCurrentState, id := cfg.cmdGetCurrentState, ssid := [], password := [] }) ∧
    (∀ rest, decodeRpc cfg (cfg.cmdGetDeviceInfo :: rest) =
      .ok { kind := .getDeviceInfo, id := cfg.cmdGetDeviceInfo, ssid := [], password := [] }) ∧
    (∀ rest, decodeRpc cfg (cfg.cmdGetWifiNetworks :: rest) =
      .ok { kind := .getWifiNetworks, id := cfg.cmdGetWifiNetworks, ssid := [], password := [] }) ∧
    (∀ id rest, id ∉ cfg.cmdTable →
      decodeRpc cfg (id :: rest) = .ok { kind := .unknown, id := id, ssid := [], password := [] }) ∧
    ∀ rest c, decodeRpc cfg (cfg.cmdWifiSettings :: rest) = .ok c → c.kind = .wifiSettings ∧ c.id = cfg.cmdWifiSettings

/-- R144, R145, R146, R147: a WIFI_SETTINGS payload decodes exactly when ARG_LENGTH is there and does not run past the
end, a nonempty ssid with its length byte is there, and a password with its length byte is there; the fields are
copied verbatim and bytes after them are ignored. -/
def Obligations.WifiSettingsDecodeLayout : Prop :=
  ∀ (cfg : Cfg) (pl : Bytes) (c : Cmd), cfg.WellFormed → pl[0]? = some cfg.cmdWifiSettings →
    (decodeRpc cfg pl = .ok c ↔
      ∃ (a s q : Byte) (ssid pw trail : Bytes),
        pl = [cfg.cmdWifiSettings, a, s] ++ ssid ++ [q] ++ pw ++ trail ∧
        ssid.length = s.toNat ∧ pw.length = q.toNat ∧ 2 + a.toNat ≤ pl.length ∧ s.toNat ≠ 0 ∧
        c = { kind := .wifiSettings, id := cfg.cmdWifiSettings, ssid := ssid, password := pw })

/-- Derived from R78 and R86: the payload a well-formed host builds for WIFI_SETTINGS decodes to its ssid and password. -/
def Obligations.WifiPayloadRoundTrip : Prop :=
  ∀ (cfg : Cfg) (ssid pw : Bytes), cfg.WellFormed → ssid ≠ [] → (wifiPayload cfg ssid pw).length ≤ 255 →
    decodeRpc cfg (wifiPayload cfg ssid pw) =
      .ok { kind := .wifiSettings, id := cfg.cmdWifiSettings, ssid := ssid, password := pw }

/-! ### The Stream Parser -/

/-- R172: at a magic position the byte is stored if it equals `MAGIC[p]`; otherwise the attempt ends with REJ_MAGIC, which
at `p = 0, sum = 0` leaves the parser's state unchanged. -/
def Obligations.MagicPositions : Prop :=
  ∀ (s : State) (b : Byte), s.cfg.WellFormed → s.p ≤ 5 →
    ([0x49#8, 0x4D#8, 0x50#8, 0x52#8, 0x4F#8, 0x56#8][s.p]? = some b →
      ∃ t, exec (.rxByte b) s = .next t ∧ s.Stored b t) ∧
    ([0x49#8, 0x4D#8, 0x50#8, 0x52#8, 0x4F#8, 0x56#8][s.p]? ≠ some b →
      exec (.rxByte b) s = .next (s.ended .rejMagic false none)) ∧
    (s.p = 0 → s.sum = 0#8 → b ≠ 0x49#8 →
      exec (.rxByte b) s = .next { s with
        responses := s.responses ++ [{ status := .rejMagic, consumed := false, data := [], cmd := none }] })

/-- R173, R174: at `p = 6` only VERSION is stored and at `p = 7` only TYPE_RPC_COMMAND; any other byte ends the attempt with
REJ_VERSION or REJ_TYPE, the other three recognised types included. -/
def Obligations.VersionAndTypePositions : Prop :=
  ∀ (s : State) (b : Byte), s.cfg.WellFormed →
    (s.p = 6 → b = s.cfg.version → ∃ t, exec (.rxByte b) s = .next t ∧ s.Stored b t) ∧
    (s.p = 6 → b ≠ s.cfg.version → exec (.rxByte b) s = .next (s.ended .rejVersion false none)) ∧
    (s.p = 7 → b = s.cfg.typeRpcCommand → ∃ t, exec (.rxByte b) s = .next t ∧ s.Stored b t) ∧
    (s.p = 7 → b ≠ s.cfg.typeRpcCommand → exec (.rxByte b) s = .next (s.ended .rejType false none)) ∧
    (s.p = 7 → b ∈ [s.cfg.typeCurrentState, s.cfg.typeErrorState, s.cfg.typeRpcResponse] →
      exec (.rxByte b) s = .next (s.ended .rejType false none))

/-- R175, R176: at `p = 8` every byte is stored and becomes `B[8]`; at `9 <= p <= 8 + L` every byte is stored; and when
`L = 0` the next byte is the checksum byte, whose match gives DECODE_ERROR. -/
def Obligations.LengthAndPayloadPositions : Prop :=
  ∀ (s : State) (b : Byte), s.cfg.WellFormed →
    (s.p = 8 → ∃ t, exec (.rxByte b) s = .next t ∧ s.Stored b t ∧ t.buf.read 8 = some b) ∧
    (∀ l : Byte, s.buf.read 8 = some l → 9 ≤ s.p → s.p ≤ 8 + l.toNat →
      ∃ t, exec (.rxByte b) s = .next t ∧ s.Stored b t) ∧
    (s.buf.read 8 = some 0#8 → s.p = 9 → b = s.sum →
      exec (.rxByte b) s = .next (s.ended .decodeError false none))

/-- R177: at `p = 9 + L` a byte that differs from `sum`, which is the additive sum of `B[0..8+L]`, ends the attempt with
CHECKSUM_ERROR and no command. -/
def Obligations.ChecksumMismatchRejected : Prop :=
  ∀ (s : State) (b l : Byte), s.buf.read 8 = some l → s.p = 9 + l.toNat →
    (b ≠ s.sum → exec (.rxByte b) s = .next (s.ended .checksumError false none)) ∧
    (s.Inv → ∃ bs, s.buf.readRange 0 (9 + l.toNat) = some bs ∧ s.sum = sum8 bs)

/-- R178: at `p = 9 + L` a byte equal to `sum` completes the frame: the payload `B[9..8+L]` is decoded, and the attempt ends
with DECODE_ERROR or with COMMAND and the decoded record. -/
def Obligations.FrameCompletion : Prop :=
  ∀ (s : State) (b l : Byte) (pl : Bytes), s.buf.read 8 = some l → s.p = 9 + l.toNat → b = s.sum →
    s.buf.readRange 9 l.toNat = some pl →
    (decodeRpc s.cfg pl = .error .invalidRpc → exec (.rxByte b) s = .next (s.ended .decodeError false none)) ∧
    ∀ c, decodeRpc s.cfg pl = .ok c →
      exec (.rxByte b) s = .next (s.ended .command (decide (c.kind ≠ .unknown)) (some c))

/-- R179, R181, R184: whenever RX_BYTE answers, it returns one response without data; every outcome but ACCEPTED leaves
`p = 0` and `sum = 0` and `B` as it was; `consumed` is 1 for ACCEPTED, 0 for the errors, and for COMMAND 1 exactly when
the kind is not UNKNOWN; and nothing changes but `p`, `sum` and, on ACCEPTED, `B[p]`. -/
def Obligations.RxOutcomesAndConsumed : Prop :=
  ∀ (s t : State) (b : Byte), exec (.rxByte b) s = .next t →
    ∃ r, t.responses = s.responses ++ [r] ∧ r.data = [] ∧
      r.status ≠ .done ∧
      (r.status = .accepted → r.consumed = true ∧ r.cmd = none ∧ t.p = s.p + 1 ∧ t.sum = s.sum + b ∧
        t.buf.read s.p = some b ∧ ∀ a, a ≠ s.p → t.buf.read a = s.buf.read a) ∧
      (r.status ≠ .accepted → t.p = 0 ∧ t.sum = 0#8 ∧ ∀ a, t.buf.read a = s.buf.read a) ∧
      (r.status ≠ .accepted → r.status ≠ .command → r.consumed = false ∧ r.cmd = none) ∧
      (r.status = .command → ∃ c, r.cmd = some c ∧ (r.consumed = true ↔ c.kind ≠ .unknown)) ∧
      t.cfg = s.cfg ∧ t.fault = s.fault ∧ t.requests = s.requests

/-- R180: a byte to be stored at an index of CAP or more is not stored: the attempt ends with OVERFLOW. In every state that
meets the invariants the index is below CAP, so RX_BYTE never gives OVERFLOW there. -/
def Obligations.CapacityOverflow : Prop :=
  (∀ (s : State) (b : Byte), s.ToStore b → s.cfg.cap ≤ s.p →
      exec (.rxByte b) s = .next (s.ended .overflow false none)) ∧
    ∀ (s t : State) (b : Byte), s.Inv → exec (.rxByte b) s = .next t →
      ∃ r, t.responses = s.responses ++ [r] ∧ r.status ≠ .overflow

/-- Derived from R170 and R183 ("every byte value at every position has an outcome"): in every state that meets the
invariants, RX_BYTE of any byte answers a next state: the byte stored if it passes its position's check, the attempt
ended if it does not. -/
def Obligations.RxByteAlwaysAnswers : Prop :=
  ∀ (s : State) (b : Byte), s.Inv →
    ∃ t, exec (.rxByte b) s = .next t ∧ (s.ToStore b → s.Stored b t) ∧
      (¬ s.ToStore b → ∃ st c k, st ≠ .accepted ∧ t = s.ended st k c)

/-- Derived from R26 and R33: the invariants hold at reset. That the parameters there are DP's and the buffer is unwritten
is the model's choice (log entries 2 and 6). -/
def Obligations.InvariantAtReset : Prop := State.reset.Inv

/-- R26: for a well-formed `Cfg`, every step keeps the invariants (a) to (e), with `sum = sum8(B[0..p-1])` (R22, R23) and the
buffer's canonical form; and (f) `p < CAP` whenever a byte is to be stored. -/
def Obligations.StepKeepsInvariant : Prop :=
  ∀ s : State, s.Inv →
    (∀ t, step s = .next t → t.Inv) ∧ ∀ b, s.ToStore b → s.p < s.cfg.cap

/-- R187: the frame of any payload of at most 255 bytes, fed byte by byte from `p = 0`, gives ACCEPTED for the first
`9 + |P|` bytes, then COMMAND with the decoded record or DECODE_ERROR, and leaves `p = 0` and `sum = 0`. -/
def Obligations.ReceivedFrameRoundTrip : Prop :=
  ∀ (s : State) (pl : Bytes), s.cfg.WellFormed → s.p = 0 → s.sum = 0#8 → pl.length ≤ 255 →
    ∃ t, feed (commandFrame s.cfg pl) s = .next t ∧ t.p = 0 ∧ t.sum = 0#8 ∧
      t.responses = s.responses ++ acceptedN (9 + pl.length) ++ [completionResponse s.cfg pl]

/-- R186: a well-formed frame with exactly one payload byte replaced and its checksum not recomputed, or with another
checksum byte, gives CHECKSUM_ERROR at its checksum byte and no COMMAND. -/
def Obligations.CorruptedFrameRejected : Prop :=
  (∀ (s : State) (pl : Bytes) (i : Fin pl.length) (y : Byte),
      s.cfg.WellFormed → s.p = 0 → s.sum = 0#8 → pl.length ≤ 255 → y ≠ pl[i] →
      ∃ t, feed (frameBytes s.cfg .rpcCommand (pl.set i y) ++ [sum8 (frameBytes s.cfg .rpcCommand pl)]) s = .next t ∧
        t.responses = s.responses ++ acceptedN (9 + pl.length) ++
          [{ status := .checksumError, consumed := false, data := [], cmd := none }]) ∧
    ∀ (s : State) (pl : Bytes) (k : Byte),
      s.cfg.WellFormed → s.p = 0 → s.sum = 0#8 → pl.length ≤ 255 → k ≠ sum8 (frameBytes s.cfg .rpcCommand pl) →
      ∃ t, feed (frameBytes s.cfg .rpcCommand pl ++ [k]) s = .next t ∧
        t.responses = s.responses ++ acceptedN (9 + pl.length) ++
          [{ status := .checksumError, consumed := false, data := [], cmd := none }]

/-- Derived from R185, R182 and R279: garbage without 0x49 is rejected byte by byte at `p = 0` and a frame after it is
recovered; a frame's first byte after a proper nonempty part of the marker is discarded, not re-examined. -/
def Obligations.Resynchronisation : Prop :=
  (∀ (s : State) (g pl : Bytes), s.cfg.WellFormed → s.p = 0 → s.sum = 0#8 → 0x49#8 ∉ g → pl.length ≤ 255 →
      ∃ t, feed (g ++ commandFrame s.cfg pl) s = .next t ∧ t.p = 0 ∧
        t.responses = s.responses ++
          List.replicate g.length { status := .rejMagic, consumed := false, data := [], cmd := none } ++
          acceptedN (9 + pl.length) ++ [completionResponse s.cfg pl]) ∧
    ∀ (s : State) (k : Nat), s.cfg.WellFormed → s.p = 0 → s.sum = 0#8 → 1 ≤ k → k ≤ 5 →
      ∃ t, feed (magic.take k ++ [0x49#8]) s = .next t ∧ t.p = 0 ∧
        t.responses = s.responses ++ acceptedN k ++
          [{ status := .rejMagic, consumed := false, data := [], cmd := none }]

/-- R188: a COMMAND outcome happens only at a checksum position, with at least 9 bytes of the attempt accepted before the
byte; and two frames with no bytes between them are both recovered. -/
def Obligations.CommandOnlyAtChecksumPosition : Prop :=
  (∀ (s t : State) (b : Byte) (r : Response), s.Inv → exec (.rxByte b) s = .next t →
      t.responses = s.responses ++ [r] → r.status = .command →
      9 ≤ s.p ∧ ∃ l, s.buf.read 8 = some l ∧ s.p = 9 + l.toNat) ∧
    ∀ (s : State) (pl pl' : Bytes), s.cfg.WellFormed → s.p = 0 → s.sum = 0#8 → pl.length ≤ 255 → pl'.length ≤ 255 →
      ∃ t, feed (commandFrame s.cfg pl ++ commandFrame s.cfg pl') s = .next t ∧ t.p = 0 ∧
        t.responses = s.responses ++ acceptedN (9 + pl.length) ++ [completionResponse s.cfg pl] ++
          acceptedN (9 + pl'.length) ++ [completionResponse s.cfg pl']

/-- Derived from R31: two states with equal `p` and equal `B[0..p-1]` give identical responses to every sequence of
requests, whatever the rest of `B` and the responses already returned are. -/
def Obligations.HiddenBufferUnobservable : Prop :=
  ∀ (s t : State) (n : Nat), s.Inv → t.Inv → s.AgreeBelow t →
    SameOutcome s t (core.run n s) (core.run n t)

/-! ### Request faults -/

/-- Derived from R240: a request that raises a fault returns no response and changes none of `p`, `sum` and `B`; it sets
the mark; and a state whose mark is set has no further step. That the request leaves the list is the model's choice
(log entry 22, DESIGN CHOICE). -/
def Obligations.RequestFaultIsSticky : Prop :=
  (∀ (s : State) (w : ReqWord) (x : SideOperand) (rest : List Presented) (r : RequestFaultReason),
      s.cfg.WellFormed → s.fault = none → s.requests = .request w x :: rest →
      decode s.cfg (.request w x) = .error (.requestFault r) →
      step s = .next { s with requests := rest, fault := some r }) ∧
    (∀ (i : Instr) (s t : State), exec i s = .next t → t.fault ≠ s.fault →
      ∃ r, t = { s with fault := some r }) ∧
    ∀ (s : State) (r : RequestFaultReason), s.cfg.WellFormed → s.fault = some r → step s = .fault (.requestFault r)

/-- Derived from R63 and R64: a word with a defined OP is rejected for its reserved bits exactly when RSV is nonzero, IC is
set on an OP other than ENC_RPC_RESPONSE (R63), or its ARG has a reserved bit set (R64); a presented request that breaks
R63 raises RequestFault(RESERVED_BITS) and has no other effect. That the request leaves the list is the model's choice
(log entry 22, DESIGN CHOICE). -/
def Obligations.ReservedBitsRejected : Prop :=
  (∀ (cfg : Cfg) (w : ReqWord) (x : SideOperand), w &&& 0xE000#16 ≠ 0xE000#16 →
    (decode cfg (.request w x) = .error (.requestFault .reservedBits) ↔
      w &&& 0x1E00#16 ≠ 0 ∨
      (w &&& 0x0100#16 ≠ 0 ∧ w &&& 0xE000#16 ≠ 0x8000#16) ∨
      (w &&& 0xE000#16 = 0x0000#16 ∧ w &&& 0x00FF#16 ≠ 0) ∨
      (w &&& 0xE000#16 = 0x4000#16 ∧ w &&& 0x00FC#16 ≠ 0) ∨
      (w &&& 0xE000#16 = 0x6000#16 ∧ w &&& 0x00F8#16 ≠ 0) ∨
      (w &&& 0xE000#16 = 0x8000#16 ∧ w &&& 0x00FC#16 ≠ 0) ∨
      (w &&& 0xE000#16 = 0xA000#16 ∧ w &&& 0x00FF#16 ≠ 0) ∨
      (w &&& 0xE000#16 = 0xC000#16 ∧ w &&& 0x00FF#16 ≠ 0))) ∧
    ∀ (s : State) (w : ReqWord) (x : SideOperand) (rest : List Presented),
      s.cfg.WellFormed → s.fault = none → s.requests = .request w x :: rest → w &&& 0xE000#16 ≠ 0xE000#16 →
      w &&& 0x1E00#16 ≠ 0 ∨ (w &&& 0x0100#16 ≠ 0 ∧ w &&& 0xE000#16 ≠ 0x8000#16) →
      step s = .next { s with requests := rest, fault := some .reservedBits }

/-- Derived from R237: when several reserved conditions hold, the reason reported is RESERVED_OP before RESERVED_BITS
before RESERVED_SELECTOR and PAYLOAD_TOO_LONG, whatever the side operand (no request can break both of the last two).
That the request leaves the list is the model's choice (log entry 22, DESIGN CHOICE). -/
def Obligations.FaultReasonPriority : Prop :=
  ∀ (s : State) (w : ReqWord) (x : SideOperand) (rest : List Presented),
    s.cfg.WellFormed → s.fault = none → s.requests = .request w x :: rest →
    (w &&& 0xE000#16 = 0xE000#16 → step s = .next { s with requests := rest, fault := some .reservedOp }) ∧
    (w &&& 0xE000#16 ≠ 0xE000#16 → reservedBitsSet w = true →
      step s = .next { s with requests := rest, fault := some .reservedBits }) ∧
    (w &&& 0xE000#16 = 0x6000#16 → x = .absent → reservedBitsSet w = false → 4 < (w &&& 0x0007#16).toNat →
      step s = .next { s with requests := rest, fault := some .reservedSelector }) ∧
    (∀ f, w &&& 0xE000#16 = 0x8000#16 → x = .fields f → reservedBitsSet w = false → 255 < 2 + totalLen f →
      step s = .next { s with requests := rest, fault := some .payloadTooLong }) ∧
    (∀ pl, w &&& 0xE000#16 = 0xC000#16 → x = .bytes pl → reservedBitsSet w = false → 255 < pl.length →
      step s = .next { s with requests := rest, fault := some .payloadTooLong })

/-! ### The step -/

/-- Derived from R60 and R47: when what is presented next decodes to `i`, a step takes it off the list and is `exec i` (the
list is the model's own, log entry 3). -/
def Obligations.StepRunsDecoded : Prop :=
  ∀ (s : State) (x : Presented) (rest : List Presented) (i : Instr),
    s.cfg.WellFormed → s.fault = none → s.requests = x :: rest → decode s.cfg x = .ok i →
    step s = exec i { s with requests := rest }

/-- Derived from R282 (and I13): while nothing is presented the block waits, its state unchanged (log entry 4). -/
def Obligations.StepWaitsForRequest : Prop :=
  ∀ s : State, s.cfg.WellFormed → s.fault = none → s.requests = [] → step s = .next s

/-- R15: a configuration that breaks one of the conditions (a) to (e) is refused; with all of them met, no step is refused
for it; and a well-formed one makes every code table a bijection onto its image. -/
def Obligations.IllFormedCfgRefused : Prop :=
  (∀ s : State,
    (step s = .refused .illFormedCfg ↔
      ¬ (265 ≤ s.cfg.cap ∧
        [s.cfg.typeCurrentState, s.cfg.typeErrorState, s.cfg.typeRpcCommand, s.cfg.typeRpcResponse].Nodup ∧
        [s.cfg.cmdGetCurrentState, s.cfg.cmdWifiSettings, s.cfg.cmdGetDeviceInfo, s.cfg.cmdGetWifiNetworks].Nodup ∧
        [s.cfg.stateStopped, s.cfg.stateAuthorized, s.cfg.stateProvisioning, s.cfg.stateProvisioned].Nodup ∧
        [s.cfg.errNone, s.cfg.errInvalidRpc, s.cfg.errUnknownRpc, s.cfg.errUnableToConnect,
          s.cfg.errNotAuthorized].Nodup))) ∧
    ∀ cfg : Cfg, cfg.WellFormed →
      (∀ t, cfg.typeOf? (cfg.typeCode t) = some t) ∧ (∀ c, cfg.commandOf? (cfg.cmdCode c) = some c) ∧
        (∀ st, cfg.stateOf? (cfg.stateCode st) = some st) ∧ ∀ e, cfg.errorOf? (cfg.errorCode e) = some e

/-- Derived from R7, R29 and R240: no step changes the configuration, clears the fault mark, or takes back a response. -/
def Obligations.StepKeepsCfgAndMark : Prop :=
  ∀ s t : State, step s = .next t →
    t.cfg = s.cfg ∧ s.fault = none ∧ ∃ rs, t.responses = s.responses ++ rs ∧ rs.length ≤ 1

/-- Derived from R60, R69 and R240: a step that takes a request either returns exactly one response and raises nothing,
or raises a request fault, returns no response and leaves `p`, `sum` and `B` as they were. In both cases the
request has left the list (log entries 3 and 22). -/
def Obligations.OneResponseOrFault : Prop :=
  ∀ (s t : State) (x : Presented) (rest : List Presented), s.requests = x :: rest → step s = .next t →
    t.requests = rest ∧
      ((∃ r, t.responses = s.responses ++ [r] ∧ t.fault = none) ∨
        ∃ r, t = { s with requests := rest, fault := some r })

/-! ### Encoding -/

/-- Derived from R61 to R68, R76, R81, R142 and R15: decoding what an instruction encodes to gives it back, for every
well-formed instruction and every well-formed `Cfg`. -/
def Obligations.DecodeEncodeRoundTrip : Prop :=
  ∀ (cfg : Cfg) (i : Instr), cfg.WellFormed → i.wellFormed cfg = true → decode cfg (encode cfg i) = .ok i

/-- Derived from R61 to R68: the other way: a request that decodes to an instruction with a defined OP is that
instruction's own encoding, word and side operand. -/
def Obligations.EncodeDecodeRoundTrip : Prop :=
  ∀ (cfg : Cfg) (w : ReqWord) (x : SideOperand) (i : Instr),
    w &&& 0xE000#16 ≠ 0xE000#16 → decode cfg (.request w x) = .ok i → encode cfg i = .request w x

/-- Derived from R87: a request word matches the opcode table's row of an OP exactly when some side operand makes it decode
to that row's instruction. -/
def Obligations.OpcodeTableRowsExact : Prop :=
  ∀ (cfg : Cfg) (w : ReqWord) (op : OpName),
    w &&& op.mask = op.pattern ↔ ∃ x i, decode cfg (.request w x) = .ok i ∧ i.op? = some op

/-- Derived from R61, R85 and R87: words written out from the notation and the table, under DP (log entry 2) for the wire
bytes. -/
def Obligations.SpecWordsDecode : Prop :=
  ∀ cfg : Cfg,
    decode cfg (.request 0x0000#16 .absent) = .ok .reset ∧
    decode cfg (.request 0x2049#16 .absent) = .ok (.rxByte 0x49#8) ∧
    decode cfg (.request 0x4002#16 .absent) = .ok (.encState .provisioning) ∧
    decode cfg (.request 0x6003#16 .absent) = .ok (.encError 3#3) ∧
    decode cfg (.request 0x8103#16 (.fields [])) = .ok (.encRpcResponse true .getWifiNetworks []) ∧
    decode cfg (.request 0x8001#16 (.fields [])) = .ok (.encRpcResponse false .wifiSettings []) ∧
    decode cfg (.request 0xA000#16 (.bytes [])) = .ok (.checksum []) ∧
    decode cfg (.request 0xC000#16 (.bytes [])) = .ok (.decodeRpcCommand []) ∧
    decode Cfg.dp (.wire .frameType 0x03#8) = .ok .frameRpcCommand ∧
    decode Cfg.dp (.wire .command 0x01#8) = .ok .cmdWifiSettings ∧
    decode Cfg.dp (.wire .state 0x02#8) = .ok .stateAuthorized ∧
    decode Cfg.dp (.wire .error 0x04#8) = .ok .errorNotAuthorized

/-! ### The wire-code rows (log entry 11) -/

/-- Derived from R76, R84 and R174: of the four type bytes, at offset 7 of an attempt, RPC_COMMAND is stored and the other
three end the attempt with REJ_TYPE. -/
def Obligations.TypeBytesAtOffsetSeven : Prop :=
  ∀ s : State, s.cfg.WellFormed → s.p = 7 →
    (∃ t, exec .frameRpcCommand s = .next t ∧ s.Stored s.cfg.typeRpcCommand t) ∧
    exec .frameCurrentState s = .next (s.ended .rejType false none) ∧
    exec .frameErrorState s = .next (s.ended .rejType false none) ∧
    exec .frameRpcResponse s = .next (s.ended .rejType false none)

/-- Derived from R77, R142 and R176: each command id, at payload offset 0 of an attempt, is stored there. -/
def Obligations.CommandIdsAtPayloadStart : Prop :=
  ∀ (s : State) (l : Byte), s.cfg.WellFormed → s.p = 9 → s.buf.read 8 = some l → 1 ≤ l.toNat →
    (∃ t, exec .cmdWifiSettings s = .next t ∧ s.Stored s.cfg.cmdWifiSettings t) ∧
    (∃ t, exec .cmdGetCurrentState s = .next t ∧ s.Stored s.cfg.cmdGetCurrentState t) ∧
    (∃ t, exec .cmdGetDeviceInfo s = .next t ∧ s.Stored s.cfg.cmdGetDeviceInfo t) ∧
    (∃ t, exec .cmdGetWifiNetworks s = .next t ∧ s.Stored s.cfg.cmdGetWifiNetworks t) ∧
    ∀ id, ∃ t, exec (.cmdUnknown id) s = .next t ∧ s.Stored id t

/-- The model's own reading of the wire-code rows (log entry 11, DESIGN CHOICE), over R171 and R183: in every state that
meets the invariants each row answers a next state: its byte is stored if it passes the check of its position, and ends
the attempt if it does not. -/
def Obligations.WireCodesAreReceived : Prop :=
  ∀ (s : State) (i : Instr) (b : Byte), s.Inv →
    (i, b) ∈ [(Instr.frameCurrentState, s.cfg.typeCurrentState), (.frameErrorState, s.cfg.typeErrorState),
      (.frameRpcCommand, s.cfg.typeRpcCommand), (.frameRpcResponse, s.cfg.typeRpcResponse),
      (.cmdWifiSettings, s.cfg.cmdWifiSettings), (.cmdGetCurrentState, s.cfg.cmdGetCurrentState),
      (.cmdGetDeviceInfo, s.cfg.cmdGetDeviceInfo), (.cmdGetWifiNetworks, s.cfg.cmdGetWifiNetworks),
      (.stateStopped, s.cfg.stateStopped), (.stateAuthorized, s.cfg.stateAuthorized),
      (.stateProvisioning, s.cfg.stateProvisioning), (.stateProvisioned, s.cfg.stateProvisioned),
      (.errorNone, s.cfg.errNone), (.errorInvalidRpc, s.cfg.errInvalidRpc), (.errorUnknownRpc, s.cfg.errUnknownRpc),
      (.errorUnableToConnect, s.cfg.errUnableToConnect), (.errorNotAuthorized, s.cfg.errNotAuthorized)] ∨
      i = .cmdUnknown b →
    ∃ t, exec i s = .next t ∧ (s.ToStore b → s.Stored b t) ∧
      (¬ s.ToStore b → ∃ st c k, st ≠ .accepted ∧ t = s.ended st k c)

/-! ### End to end -/

/-- Derived from R86, R187 and R147: the RX_BYTE requests of a WIFI_SETTINGS frame, presented from `p = 0`, are taken one a
step and end in COMMAND with the ssid and the password. -/
def Obligations.WifiCredentialsDelivered : Prop :=
  ∀ (s : State) (ssid pw : Bytes) (rest : List Presented),
    s.cfg.WellFormed → s.fault = none → s.p = 0 → s.sum = 0#8 → ssid ≠ [] →
    (wifiPayload s.cfg ssid pw).length ≤ 255 → s.requests = rxWifi s.cfg ssid pw ++ rest →
    ∃ t, core.run (10 + (wifiPayload s.cfg ssid pw).length) s = .next t ∧ t.p = 0 ∧ t.sum = 0#8 ∧ t.requests = rest ∧
      t.responses = s.responses ++ acceptedN (9 + (wifiPayload s.cfg ssid pw).length) ++
        [{ status := .command
           consumed := true
           data := []
           cmd := some { kind := .wifiSettings, id := s.cfg.cmdWifiSettings, ssid := ssid, password := pw } }]
end

