-- ==== Sys2Proof/Laws/Decode.lean ====
section
/-! SUPPORT. The request word's fields: read back from a built word (R61), and as masked values of the word; and the code
tables of a well-formed `Cfg` read back by their inverse maps (R15, R18). -/

namespace Sys2Proof

/-! ### Fields of a built word -/

@[simp] theorem opField_mkWord (op : BitVec 3) (ic : Bool) (arg : Byte) : opField (mkWord op ic arg) = op := by
  revert op ic arg; decide +kernel

@[simp] theorem rsvField_mkWord (op : BitVec 3) (ic : Bool) (arg : Byte) : rsvField (mkWord op ic arg) = 0#4 := by
  revert op ic arg; decide +kernel

@[simp] theorem icField_mkWord (op : BitVec 3) (ic : Bool) (arg : Byte) : icField (mkWord op ic arg) = ic := by
  revert op ic arg; decide +kernel

@[simp] theorem argField_mkWord (op : BitVec 3) (ic : Bool) (arg : Byte) : argField (mkWord op ic arg) = arg := by
  revert op ic arg; decide +kernel

@[simp] theorem opOf_mkWord (op : OpName) (ic : Bool) (arg : Byte) : opOf (mkWord op.bits ic arg) = op := by
  cases op <;> simp [opOf, OpName.bits]

/-- A word whose reserved bits are clear is built from its fields. -/
theorem mkWord_fields {w : ReqWord} (h : rsvField w = 0#4) : mkWord (opField w) (icField w) (argField w) = w := by
  apply BitVec.eq_of_getLsbD_eq
  intro i hi
  have hr : ∀ j, j < 4 → w.getLsbD (9 + j) = false := fun j hj => by
    have := congrArg (fun v => v.getLsbD j) h
    simpa [rsvField, BitVec.getLsbD_extractLsb', hj] using this
  have h9 := hr 0 (by omega)
  have h10 := hr 1 (by omega)
  have h11 := hr 2 (by omega)
  have h12 := hr 3 (by omega)
  refine Eq.trans BitVec.getLsbD_append ?_
  simp only [BitVec.getLsbD_append]
  interval_cases i <;> simp_all [opField, icField, argField]

theorem opOf_bits (w : ReqWord) : (opOf w).bits = opField w := by
  generalize hv : opField w = v
  simp only [opOf, hv]
  clear hv
  revert v; decide

/-! ### Fields as masked values -/

theorem and_op (w : ReqWord) : w &&& 0xE000#16 = opField w ++ 0#13 := by
  apply BitVec.eq_of_getLsbD_eq
  intro i hi
  refine Eq.trans ?_ BitVec.getLsbD_append.symm
  interval_cases i <;> simp [opField]

theorem and_rsv (w : ReqWord) : w &&& 0x1E00#16 = 0#3 ++ rsvField w ++ 0#9 := by
  apply BitVec.eq_of_getLsbD_eq
  intro i hi
  refine Eq.trans ?_ BitVec.getLsbD_append.symm
  simp only [BitVec.getLsbD_append]
  interval_cases i <;> simp [rsvField]

theorem and_ic (w : ReqWord) : w &&& 0x0100#16 = 0#7 ++ BitVec.ofBool (icField w) ++ 0#8 := by
  apply BitVec.eq_of_getLsbD_eq
  intro i hi
  refine Eq.trans ?_ BitVec.getLsbD_append.symm
  simp only [BitVec.getLsbD_append]
  interval_cases i <;> simp [icField]

theorem and_arg (w : ReqWord) (k : Byte) : w &&& (0#8 ++ k) = 0#8 ++ (argField w &&& k) := by
  apply BitVec.eq_of_getLsbD_eq
  intro i hi
  refine Eq.trans ?_ BitVec.getLsbD_append.symm
  rw [BitVec.getLsbD_and, show (0#8 ++ k : BitVec 16).getLsbD i = _ from BitVec.getLsbD_append]
  interval_cases i <;> simp [argField]

/-- The masked test of an OP is the test of its name. -/
theorem and_op_eq_iff (w : ReqWord) (op : OpName) : w &&& 0xE000#16 = op.bits ++ 0#13 ↔ opOf w = op := by
  rw [and_op, ← opOf_bits]
  generalize opOf w = o
  revert o op; intro o op; cases o <;> cases op <;> decide

theorem and_rsv_ne_iff (w : ReqWord) : w &&& 0x1E00#16 ≠ 0 ↔ rsvField w ≠ 0#4 := by
  rw [and_rsv]
  generalize rsvField w = v
  revert v; decide

theorem and_ic_ne_iff (w : ReqWord) : w &&& 0x0100#16 ≠ 0 ↔ icField w = true := by
  rw [and_ic]
  generalize icField w = v
  revert v; decide

/-! ### The code tables (R15, R18) -/

theorem Cfg.typeOf?_typeCode {cfg : Cfg} (h : cfg.WellFormed) (t : FrameType) :
    cfg.typeOf? (cfg.typeCode t) = some t := by
  obtain ⟨-, h, -⟩ := h
  simp only [Cfg.typeTable, List.nodup_cons, List.mem_cons, List.not_mem_nil, not_or, or_false] at h
  cases t <;> simp [Cfg.typeOf?, Cfg.typeCode, beq_eq_decide, h]

theorem Cfg.commandOf?_cmdCode {cfg : Cfg} (h : cfg.WellFormed) (c : Command) :
    cfg.commandOf? (cfg.cmdCode c) = some c := by
  obtain ⟨-, -, h, -⟩ := h
  simp only [Cfg.cmdTable, List.nodup_cons, List.mem_cons, List.not_mem_nil, not_or, or_false] at h
  cases c <;> simp [Cfg.commandOf?, Cfg.cmdCode, beq_eq_decide, h]

theorem Cfg.stateOf?_stateCode {cfg : Cfg} (h : cfg.WellFormed) (t : ProvState) :
    cfg.stateOf? (cfg.stateCode t) = some t := by
  obtain ⟨-, -, -, h, -⟩ := h
  simp only [Cfg.stateTable, List.nodup_cons, List.mem_cons, List.not_mem_nil, not_or, or_false] at h
  cases t <;> simp [Cfg.stateOf?, Cfg.stateCode, beq_eq_decide, h]

theorem Cfg.errorOf?_errorCode {cfg : Cfg} (h : cfg.WellFormed) (e : ErrorCode) :
    cfg.errorOf? (cfg.errorCode e) = some e := by
  obtain ⟨-, -, -, -, h⟩ := h
  simp only [Cfg.errorTable, List.nodup_cons, List.mem_cons, List.not_mem_nil, not_or, or_false] at h
  cases e <;> simp [Cfg.errorOf?, Cfg.errorCode, beq_eq_decide, h]

/-- R142: an id that is none of the four codes is UNKNOWN. -/
theorem Cfg.commandOf?_eq_none {cfg : Cfg} {id : Byte} (h : id ∉ cfg.cmdTable) : cfg.commandOf? id = none := by
  simp only [Cfg.cmdTable, List.mem_cons, List.not_mem_nil, not_or, or_false] at h
  simp [Cfg.commandOf?, Cfg.cmdCode, beq_eq_decide, Ne.symm h.1, Ne.symm h.2.1, Ne.symm h.2.2.1,
    Ne.symm h.2.2.2]

theorem Cfg.kindOf_cmdCode {cfg : Cfg} (h : cfg.WellFormed) (c : Command) : cfg.kindOf (cfg.cmdCode c) = c.kind := by
  simp [Cfg.kindOf, Cfg.commandOf?_cmdCode h]

theorem Cfg.kindOf_unknown {cfg : Cfg} {id : Byte} (h : id ∉ cfg.cmdTable) : cfg.kindOf id = .unknown := by
  simp [Cfg.kindOf, Cfg.commandOf?_eq_none h]

end Sys2Proof
end

