-- ==== Sys2Proof/Laws/Memory.lean ====
section
/-! SUPPORT. The laws of the frame buffer: read after write, the canonical form, and ranges of bytes. -/

namespace Sys2Proof.Machine

@[simp] theorem Memory.read_nil (i : Nat) : Memory.read [] i = none := rfl

/-- A write is read back, and leaves every other index alone; in canonical form or not. -/
theorem Memory.read_write (m : Memory) (i : Nat) (v : Byte) (a : Nat) :
    (m.write i v).read a = if a = i then some v else m.read a := by
  induction m with
  | nil => simp only [Memory.write, Memory.read, eq_comm]
  | cons c m ih =>
    obtain ⟨k, x⟩ := c
    simp only [Memory.write]
    split
    · simp only [Memory.read, eq_comm (a := i)]
    · split
      next hik =>
        subst hik
        simp only [Memory.read, eq_comm (a := i)]
        split <;> rfl
      next hik =>
        simp only [Memory.read, ih]
        by_cases hka : k = a
        · have : a ≠ i := by omega
          simp [hka, this]
        · simp [hka]

@[simp] theorem Memory.read_write_same (m : Memory) (i : Nat) (v : Byte) : (m.write i v).read i = some v := by
  simp [Memory.read_write]

theorem Memory.read_write_other (m : Memory) {i a : Nat} (v : Byte) (h : a ≠ i) :
    (m.write i v).read a = m.read a := by
  simp [Memory.read_write, h]

/-- Every index a write leaves listed was listed before or is the one written. -/
theorem Memory.mem_write {m : Memory} {i : Nat} {v : Byte} {c : Host.Cell} (h : c ∈ m.write i v) :
    c.1 = i ∨ c ∈ m := by
  induction m with
  | nil => simp only [Memory.write, List.mem_singleton] at h; simp [h]
  | cons d m ih =>
    obtain ⟨k, x⟩ := d
    simp only [Memory.write] at h
    split at h
    · rcases List.mem_cons.1 h with rfl | h
      · simp
      · exact .inr h
    · split at h
      · rcases List.mem_cons.1 h with rfl | h
        · simp
        · exact .inr (List.mem_cons_of_mem _ h)
      · rcases List.mem_cons.1 h with rfl | h
        · simp
        · rcases ih h with h | h
          · exact .inl h
          · exact .inr (List.mem_cons_of_mem _ h)

/-- A write keeps the canonical form. -/
theorem Memory.write_wf {m : Memory} (h : m.wf) (i : Nat) (v : Byte) : (m.write i v).wf := by
  induction m with
  | nil => simp [Memory.write, Memory.wf]
  | cons c m ih =>
    obtain ⟨k, x⟩ := c
    obtain ⟨hk, hm⟩ := List.pairwise_cons.1 h
    simp only [Memory.write]
    split
    next hlt =>
      refine List.pairwise_cons.2 ⟨fun d hd => ?_, h⟩
      rcases List.mem_cons.1 hd with rfl | hd
      · exact hlt
      · exact Nat.lt_trans hlt (hk d hd)
    next hge =>
      split
      next heq => subst heq; exact List.pairwise_cons.2 ⟨hk, hm⟩
      next hne =>
        refine List.pairwise_cons.2 ⟨fun d hd => ?_, ih hm⟩
        rcases Memory.mem_write hd with hd | hd
        · show k < d.1
          omega
        · exact hk d hd

/-- A write at an index below a bound keeps the bound. -/
theorem Memory.write_bound {m : Memory} {n i : Nat} (h : ∀ c ∈ m, c.1 < n) (hi : i < n) (v : Byte) :
    ∀ c ∈ m.write i v, c.1 < n := fun c hc => by
  rcases Memory.mem_write hc with hc | hc
  · omega
  · exact h c hc

@[simp] theorem Memory.readRange_zero (m : Memory) (i : Nat) : m.readRange i 0 = some [] := rfl

/-- What a range of reads gives: `n` bytes, each the byte at its index. -/
theorem Memory.readRange_eq_some {m : Memory} {i n : Nat} {bs : Bytes} :
    m.readRange i n = some bs ↔ bs.length = n ∧ ∀ k (h : k < bs.length), m.read (i + k) = some bs[k] := by
  induction n generalizing i bs with
  | zero =>
    simp only [Memory.readRange_zero, Option.some.injEq, List.length_eq_zero_iff]
    constructor
    · rintro rfl; simp
    · rintro ⟨rfl, -⟩; rfl
  | succ n ih =>
    cases bs with
    | nil =>
      simp only [Memory.readRange, List.length_nil]
      constructor
      · intro h; split at h <;> simp at h
      · rintro ⟨h, -⟩; omega
    | cons b bs =>
      simp only [Memory.readRange]
      constructor
      · intro h
        split at h
        next b' bs' hb hbs =>
          obtain ⟨rfl, rfl⟩ : b' = b ∧ bs' = bs := by simpa using h
          obtain ⟨hl, hr⟩ := ih.1 hbs
          refine ⟨by simp [hl], fun k hk => ?_⟩
          cases k with
          | zero => simpa using hb
          | succ k =>
            have := hr k (by simpa using hk)
            simpa [Nat.add_assoc, Nat.add_comm 1 k] using this
        next => simp at h
      · rintro ⟨hl, hr⟩
        have hb : m.read i = some b := hr 0 (Nat.succ_pos _)
        have hbs : m.readRange (i + 1) n = some bs := ih.2
          ⟨by simpa using hl, fun k hk => by
            have := hr (k + 1) (by simpa using hk)
            simpa [Nat.add_assoc, Nat.add_comm 1 k] using this⟩
        simp [hb, hbs]

/-- A range of reads depends on the bytes it reads and no others. -/
theorem Memory.readRange_congr {m m' : Memory} {i n : Nat} (h : ∀ a, i ≤ a → a < i + n → m'.read a = m.read a) :
    m'.readRange i n = m.readRange i n := by
  induction n generalizing i with
  | zero => rfl
  | succ n ih =>
    simp only [Memory.readRange, h i (by omega) (by omega),
      ih (i := i + 1) fun a h1 h2 => h a (by omega) (by omega)]

/-- One more byte. -/
theorem Memory.readRange_succ {m : Memory} {i n : Nat} {bs : Bytes} {b : Byte} (h : m.readRange i n = some bs)
    (hb : m.read (i + n) = some b) : m.readRange i (n + 1) = some (bs ++ [b]) := by
  obtain ⟨hl, hr⟩ := Memory.readRange_eq_some.1 h
  refine Memory.readRange_eq_some.2 ⟨by simp [hl], fun k hk => ?_⟩
  by_cases hkn : k < bs.length
  · rw [List.getElem_append_left hkn]; exact hr k hkn
  · obtain rfl : k = n := by simp at hk; omega
    simpa [List.getElem_append_right, hl] using hb

/-- A range written below a bound reads every index below it. -/
theorem Memory.readRange_get {m : Memory} {i n : Nat} {bs : Bytes} (h : m.readRange i n = some bs) {k : Nat}
    (hk : k < n) : m.read (i + k) = bs[k]? := by
  obtain ⟨hl, hr⟩ := Memory.readRange_eq_some.1 h
  rw [hr k (by omega), List.getElem?_eq_getElem]

/-- A part of a range that reads, reads. -/
theorem Memory.readRange_sub {m : Memory} {n : Nat} {bs : Bytes} (h : m.readRange 0 n = some bs) {i k : Nat}
    (hk : i + k ≤ n) : m.readRange i k = some ((bs.drop i).take k) := by
  obtain ⟨hl, hr⟩ := Memory.readRange_eq_some.1 h
  refine Memory.readRange_eq_some.2 ⟨by simp; omega, fun j hj => ?_⟩
  have := hr (i + j) (by simp at hj; omega)
  simpa using this

end Sys2Proof.Machine
end

