-- ==== Sys2Proof/Laws/State.lean ====
section
/-! SUPPORT. One lemma per field per update of State, true by rfl. -/

namespace Sys2Proof.Machine

@[simp] theorem State.respond_cfg (s : State) (r : Response) : (s.respond r).cfg = s.cfg := rfl
@[simp] theorem State.respond_p (s : State) (r : Response) : (s.respond r).p = s.p := rfl
@[simp] theorem State.respond_sum (s : State) (r : Response) : (s.respond r).sum = s.sum := rfl
@[simp] theorem State.respond_buf (s : State) (r : Response) : (s.respond r).buf = s.buf := rfl
@[simp] theorem State.respond_fault (s : State) (r : Response) : (s.respond r).fault = s.fault := rfl
@[simp] theorem State.respond_requests (s : State) (r : Response) : (s.respond r).requests = s.requests := rfl
@[simp] theorem State.respond_responses (s : State) (r : Response) : (s.respond r).responses = s.responses ++ [r] := rfl

@[simp] theorem State.clearAttempt_cfg (s : State) : s.clearAttempt.cfg = s.cfg := rfl
@[simp] theorem State.clearAttempt_p (s : State) : s.clearAttempt.p = 0 := rfl
@[simp] theorem State.clearAttempt_sum (s : State) : s.clearAttempt.sum = 0#8 := rfl
@[simp] theorem State.clearAttempt_buf (s : State) : s.clearAttempt.buf = s.buf := rfl
@[simp] theorem State.clearAttempt_fault (s : State) : s.clearAttempt.fault = s.fault := rfl
@[simp] theorem State.clearAttempt_requests (s : State) : s.clearAttempt.requests = s.requests := rfl
@[simp] theorem State.clearAttempt_responses (s : State) : s.clearAttempt.responses = s.responses := rfl

@[simp] theorem State.endAttempt_cfg (s : State) (st : Status) (c : Option Cmd) : (s.endAttempt st c).cfg = s.cfg := rfl
@[simp] theorem State.endAttempt_p (s : State) (st : Status) (c : Option Cmd) : (s.endAttempt st c).p = 0 := rfl
@[simp] theorem State.endAttempt_sum (s : State) (st : Status) (c : Option Cmd) : (s.endAttempt st c).sum = 0#8 := rfl
@[simp] theorem State.endAttempt_buf (s : State) (st : Status) (c : Option Cmd) : (s.endAttempt st c).buf = s.buf := rfl
@[simp] theorem State.endAttempt_fault (s : State) (st : Status) (c : Option Cmd) : (s.endAttempt st c).fault = s.fault := rfl
@[simp] theorem State.endAttempt_requests (s : State) (st : Status) (c : Option Cmd) : (s.endAttempt st c).requests = s.requests := rfl
@[simp] theorem State.endAttempt_responses (s : State) (st : Status) (c : Option Cmd) : (s.endAttempt st c).responses = s.responses ++ [rxResponse st c] := rfl

@[simp] theorem State.raiseRequestFault_cfg (s : State) (r : RequestFaultReason) : (s.raiseRequestFault r).cfg = s.cfg := rfl
@[simp] theorem State.raiseRequestFault_p (s : State) (r : RequestFaultReason) : (s.raiseRequestFault r).p = s.p := rfl
@[simp] theorem State.raiseRequestFault_sum (s : State) (r : RequestFaultReason) : (s.raiseRequestFault r).sum = s.sum := rfl
@[simp] theorem State.raiseRequestFault_buf (s : State) (r : RequestFaultReason) : (s.raiseRequestFault r).buf = s.buf := rfl
@[simp] theorem State.raiseRequestFault_fault (s : State) (r : RequestFaultReason) : (s.raiseRequestFault r).fault = some r := rfl
@[simp] theorem State.raiseRequestFault_requests (s : State) (r : RequestFaultReason) : (s.raiseRequestFault r).requests = s.requests := rfl
@[simp] theorem State.raiseRequestFault_responses (s : State) (r : RequestFaultReason) : (s.raiseRequestFault r).responses = s.responses := rfl

@[simp] theorem State.presentNext_cfg (s : State) (x : Presented) : (s.presentNext x).cfg = s.cfg := rfl
@[simp] theorem State.presentNext_p (s : State) (x : Presented) : (s.presentNext x).p = s.p := rfl
@[simp] theorem State.presentNext_sum (s : State) (x : Presented) : (s.presentNext x).sum = s.sum := rfl
@[simp] theorem State.presentNext_buf (s : State) (x : Presented) : (s.presentNext x).buf = s.buf := rfl
@[simp] theorem State.presentNext_fault (s : State) (x : Presented) : (s.presentNext x).fault = s.fault := rfl
@[simp] theorem State.presentNext_requests (s : State) (x : Presented) : (s.presentNext x).requests = x :: s.requests := rfl
@[simp] theorem State.presentNext_responses (s : State) (x : Presented) : (s.presentNext x).responses = s.responses := rfl

@[simp] theorem State.reset_cfg : State.reset.cfg = Cfg.dp := rfl
@[simp] theorem State.reset_p : State.reset.p = 0 := rfl
@[simp] theorem State.reset_sum : State.reset.sum = 0#8 := rfl
@[simp] theorem State.reset_buf : State.reset.buf = [] := rfl
@[simp] theorem State.reset_fault : State.reset.fault = none := rfl
@[simp] theorem State.reset_requests : State.reset.requests = [] := rfl
@[simp] theorem State.reset_responses : State.reset.responses = [] := rfl

end Sys2Proof.Machine
end

