-- ==== Sys2Proof/Laws/Receive.lean ====
section
/-! SUPPORT. What storing a byte and receiving a byte can do, said once. -/

namespace Sys2Proof.Machine

/-- R183: a byte stored within the capacity. -/
theorem State.storeByte_stored {s : State} (h : s.p < s.cfg.cap) (b : Byte) : s.Stored b (s.storeByte b) := by
  have hc : ¬ s.cfg.cap ≤ s.p := by omega
  constructor <;> simp only [State.storeByte, hc, ↓reduceIte, State.respond]
  · exact Memory.read_write_same _ _ _
  · exact fun a ha => Memory.read_write_other _ _ ha
  · rfl

/-- R180: no byte is stored at or over the capacity. -/
theorem State.storeByte_overflow {s : State} (h : s.cfg.cap ≤ s.p) (b : Byte) :
    s.storeByte b = s.endAttempt .overflow none := by
  simp [State.storeByte, h]

/-- The state an accepted byte leaves, as data. -/
theorem State.storeByte_eq {s : State} (h : s.p < s.cfg.cap) (b : Byte) :
    s.storeByte b = { s with
      p := s.p + 1
      sum := s.sum + b
      buf := s.buf.write s.p b
      responses := s.responses ++ [rxResponse .accepted none] } := by
  simp [State.storeByte, Nat.not_le.2 h, State.respond]

/-- A byte that passes its position's check is stored. -/
theorem State.receiveByte_toStore {s : State} {b : Byte} (h : s.ToStore b) :
    s.receiveByte b = .next (s.storeByte b) := by
  rcases h with ⟨hp, hb⟩ | ⟨hp, rfl⟩ | ⟨hp, rfl⟩ | hp | ⟨hp, l, hl, hpl⟩
  · simp [State.receiveByte, hp, hb]
  · simp [State.receiveByte, hp]
  · simp [State.receiveByte, hp]
  · simp [State.receiveByte, hp]
  · have h5 : ¬ s.p ≤ 5 := by omega
    have h6 : s.p ≠ 6 := by omega
    have h7 : s.p ≠ 7 := by omega
    have h8 : s.p ≠ 8 := by omega
    simp [State.receiveByte, h5, h6, h7, h8, hl, State.receiveBody, hpl]

/-- Everything one received byte can do, when it answers a next state: the byte is stored; or a header check fails; or,
past the payload, the checksum differs or the frame completes. -/
theorem State.receiveByte_cases {s t : State} {b : Byte} (h : s.receiveByte b = .next t) :
    (s.ToStore b ∧ t = s.storeByte b) ∨
    (s.p ≤ 5 ∧ magic[s.p]? ≠ some b ∧ t = s.endAttempt .rejMagic none) ∨
    (s.p = 6 ∧ b ≠ s.cfg.version ∧ t = s.endAttempt .rejVersion none) ∨
    (s.p = 7 ∧ b ≠ s.cfg.typeRpcCommand ∧ t = s.endAttempt .rejType none) ∨
    ∃ l, s.buf.read 8 = some l ∧ 8 + l.toNat < s.p ∧ 9 ≤ s.p ∧
      ((b ≠ s.sum ∧ t = s.endAttempt .checksumError none) ∨
        (b = s.sum ∧ ∃ pl, s.buf.readRange 9 l.toNat = some pl ∧ t = s.completeFrame pl)) := by
  simp only [State.receiveByte] at h
  split at h
  next hp =>
    split at h <;> cases h
    next hb => exact .inl ⟨.inl ⟨hp, hb⟩, rfl⟩
    next hb => exact .inr (.inl ⟨hp, hb, rfl⟩)
  next hp5 =>
  split at h
  next hp =>
    split at h <;> cases h
    next hb => exact .inl ⟨.inr (.inl ⟨hp, hb⟩), rfl⟩
    next hb => exact .inr (.inr (.inl ⟨hp, hb, rfl⟩))
  next hp6 =>
  split at h
  next hp =>
    split at h <;> cases h
    next hb => exact .inl ⟨.inr (.inr (.inl ⟨hp, hb⟩)), rfl⟩
    next hb => exact .inr (.inr (.inr (.inl ⟨hp, hb, rfl⟩)))
  next hp7 =>
  split at h
  next hp => cases h; exact .inl ⟨.inr (.inr (.inr (.inl hp))), rfl⟩
  next hp8 =>
  have hp9 : 9 ≤ s.p := by omega
  split at h
  next => cases h
  next l hl =>
  simp only [State.receiveBody] at h
  split at h
  next hpl => cases h; exact .inl ⟨.inr (.inr (.inr (.inr ⟨hp9, l, hl, hpl⟩))), rfl⟩
  next hpl =>
  refine .inr (.inr (.inr (.inr ⟨l, hl, by omega, hp9, ?_⟩)))
  split at h
  next hb => cases h; exact .inl ⟨hb, rfl⟩
  next hb =>
  split at h
  next => cases h
  next pl hpl' => cases h; exact .inr ⟨by simpa using hb, pl, hpl', rfl⟩

/-- A completed frame ends the attempt with the response its payload gives. -/
theorem State.completeFrame_eq (s : State) (pl : Bytes) :
    s.completeFrame pl = { s with
      p := 0
      sum := 0#8
      responses := s.responses ++ [completionResponse s.cfg pl] } := by
  simp only [State.completeFrame, completionResponse]
  cases decodeRpc s.cfg pl <;>
    simp [State.endAttempt, State.respond, State.clearAttempt, rxResponse, consumedFlag]

/-- Receiving a byte never refuses. -/
theorem State.receiveByte_not_refused (s : State) (b : Byte) (r : Refusal) : s.receiveByte b ≠ .refused r := by
  intro h
  simp only [State.receiveByte, State.receiveBody] at h
  repeat' split at h
  all_goals cases h

end Sys2Proof.Machine
end

