-- ==== Sys2Proof/Laws/Exec.lean ====
section
/-! SUPPORT. What an instruction and a step can do, said once, and runs of received bytes. -/

namespace Sys2Proof.Machine

/-- Everything an instruction can do: answer a response over an unchanged state, raise a request fault, reset the parser,
or receive one byte. -/
theorem exec_cases (i : Instr) (s : State) :
    (∃ r, exec i s = .next (s.respond r)) ∨ (∃ r, exec i s = .next (s.raiseRequestFault r)) ∨
      exec i s = .next (s.clearAttempt.respond (plainResponse .done [] none)) ∨ ∃ b, exec i s = s.receiveByte b := by
  cases i with
  | reset => exact .inr (.inr (.inl rfl))
  | rxByte b => exact .inr (.inr (.inr ⟨b, rfl⟩))
  | encState st => exact .inl ⟨_, rfl⟩
  | encError esel =>
    simp only [exec, execEncError]
    cases errorOfSel esel with
    | none => exact .inr (.inl ⟨_, rfl⟩)
    | some e => exact .inl ⟨_, rfl⟩
  | encRpcResponse ic c f =>
    simp only [exec, execEncRpcResponse]
    split
    · exact .inr (.inl ⟨_, rfl⟩)
    · exact .inl ⟨_, rfl⟩
  | checksum d => exact .inl ⟨_, rfl⟩
  | decodeRpcCommand pl =>
    simp only [exec, execDecodeRpcCommand]
    split
    · exact .inr (.inl ⟨_, rfl⟩)
    · cases decodeRpc s.cfg pl <;> exact .inl ⟨_, rfl⟩
  | reservedOp bits => exact .inr (.inl ⟨_, rfl⟩)
  | frameCurrentState => exact .inr (.inr (.inr ⟨_, rfl⟩))
  | frameErrorState => exact .inr (.inr (.inr ⟨_, rfl⟩))
  | frameRpcCommand => exact .inr (.inr (.inr ⟨_, rfl⟩))
  | frameRpcResponse => exact .inr (.inr (.inr ⟨_, rfl⟩))
  | cmdWifiSettings => exact .inr (.inr (.inr ⟨_, rfl⟩))
  | cmdGetCurrentState => exact .inr (.inr (.inr ⟨_, rfl⟩))
  | cmdGetDeviceInfo => exact .inr (.inr (.inr ⟨_, rfl⟩))
  | cmdGetWifiNetworks => exact .inr (.inr (.inr ⟨_, rfl⟩))
  | cmdUnknown id => exact .inr (.inr (.inr ⟨_, rfl⟩))
  | stateStopped => exact .inr (.inr (.inr ⟨_, rfl⟩))
  | stateAuthorized => exact .inr (.inr (.inr ⟨_, rfl⟩))
  | stateProvisioning => exact .inr (.inr (.inr ⟨_, rfl⟩))
  | stateProvisioned => exact .inr (.inr (.inr ⟨_, rfl⟩))
  | errorNone => exact .inr (.inr (.inr ⟨_, rfl⟩))
  | errorInvalidRpc => exact .inr (.inr (.inr ⟨_, rfl⟩))
  | errorUnknownRpc => exact .inr (.inr (.inr ⟨_, rfl⟩))
  | errorUnableToConnect => exact .inr (.inr (.inr ⟨_, rfl⟩))
  | errorNotAuthorized => exact .inr (.inr (.inr ⟨_, rfl⟩))

/-- Everything a step can do when it answers a next state: wait, run the decoded instruction, or raise the request fault of
a rejected word. -/
theorem step_cases {s t : State} (h : step s = .next t) :
    s.cfg.WellFormed ∧ s.fault = none ∧
      ((s.requests = [] ∧ t = s) ∨
        ∃ x rest, s.requests = x :: rest ∧
          ((∃ i, decode s.cfg x = .ok i ∧ exec i { s with requests := rest } = .next t) ∨
            ∃ r, decode s.cfg x = .error (.requestFault r) ∧ t = { s with requests := rest, fault := some r })) := by
  simp only [step] at h
  split at h
  next hwf =>
    refine ⟨hwf, ?_⟩
    split at h
    next => cases h
    next hf =>
      refine ⟨hf, ?_⟩
      cases hr : s.requests with
      | nil =>
        simp only [State.fetch, hr] at h
        cases h
        exact .inl ⟨rfl, rfl⟩
      | cons x rest =>
        refine .inr ⟨x, rest, rfl, ?_⟩
        simp only [State.fetch, hr] at h
        cases hd : decode s.cfg x with
        | ok i => rw [hd] at h; exact .inl ⟨i, rfl, h⟩
        | error r =>
          rw [hd] at h
          cases r with
          | requestFault r => cases h; exact .inr ⟨r, rfl, rfl⟩
          | sideOperand => cases h
  next => cases h

/-- A run of steps, one step at a time. -/
@[simp] theorem core_run_zero (s : State) : core.run 0 s = .next s := rfl

theorem core_run_next {s t : State} (h : step s = .next t) (n : Nat) : core.run (n + 1) s = core.run n t := by
  have h : core.step s = .next t := h
  simp [Host.Core.run, h]

theorem core_run_fault {s : State} {r : Fault} (h : step s = .fault r) (n : Nat) : core.run (n + 1) s = .fault r := by
  have h : core.step s = .fault r := h
  simp [Host.Core.run, h]

theorem core_run_refused {s : State} {r : Refusal} (h : step s = .refused r) (n : Nat) :
    core.run (n + 1) s = .refused r := by
  have h : core.step s = .refused r := h
  simp [Host.Core.run, h]

@[simp] theorem feed_nil (s : State) : feed [] s = .next s := rfl

/-- One byte of a run. -/
theorem feed_cons_next {s t : State} {b : Byte} (h : exec (.rxByte b) s = .next t) (bs : Bytes) :
    feed (b :: bs) s = feed bs t := by
  simp [feed, h]

/-- Runs of bytes one after the other. -/
theorem feed_append_next {x : Bytes} {s t : State} (h : feed x s = .next t) (y : Bytes) : feed (x ++ y) s = feed y t := by
  induction x generalizing s with
  | nil => cases h; rfl
  | cons b x ih =>
    cases he : exec (.rxByte b) s with
    | next u =>
      rw [feed_cons_next he] at h
      rw [List.cons_append, feed_cons_next he]
      exact ih h
    | fault r => simp [feed, he] at h
    | refused r => simp [feed, he] at h

end Sys2Proof.Machine
end

