-- ==== Sys2Proof/Laws/PerInstr.lean ====
section
/-! SUPPORT. Per-instruction facts about syntax. `RowMatch`: under DP, the bits an instruction encodes to match its row of
the opcode table (R87): a request's word under the row's mask, a wire-code row's byte. -/

namespace Sys2Proof.Laws.RowMatch

/-- The encoded bits match the instruction's row of spec/opcode_table.json. -/
def Statement (i : Instr) : Prop :=
  match encode Cfg.dp i with
  | .request w _ => ∃ op, i.op? = some op ∧ w &&& op.mask = op.pattern
  | .wire _ b => i.op? = none ∧ ∀ v, i.dpCode = some v → b = v

theorem reset : Statement .reset := ⟨_, rfl, by decide⟩
theorem rxByte (b : Byte) : Statement (.rxByte b) := ⟨_, rfl, by revert b; decide +kernel⟩
theorem encState (st : ProvState) : Statement (.encState st) := ⟨_, rfl, by cases st <;> decide⟩
theorem encError (esel : BitVec 3) : Statement (.encError esel) := ⟨_, rfl, by revert esel; decide⟩
theorem encRpcResponse (ic : Bool) (c : Command) (f : List Bytes) : Statement (.encRpcResponse ic c f) :=
  ⟨_, rfl, by cases ic <;> cases c <;> decide⟩
theorem checksum (d : Bytes) : Statement (.checksum d) := ⟨_, rfl, by decide⟩
theorem decodeRpcCommand (pl : Bytes) : Statement (.decodeRpcCommand pl) := ⟨_, rfl, by decide⟩
theorem reservedOp (bits : BitVec 13) : Statement (.reservedOp bits) :=
  ⟨_, rfl, by
    apply BitVec.eq_of_getLsbD_eq
    intro i hi
    have h : (OpName.reservedOp.bits ++ bits : ReqWord).getLsbD i = _ := BitVec.getLsbD_append
    rw [BitVec.getLsbD_and, h]
    interval_cases i <;> simp [OpName.bits, OpName.mask, OpName.pattern]⟩
theorem frameCurrentState : Statement .frameCurrentState := ⟨rfl, by decide⟩
theorem frameErrorState : Statement .frameErrorState := ⟨rfl, by decide⟩
theorem frameRpcCommand : Statement .frameRpcCommand := ⟨rfl, by decide⟩
theorem frameRpcResponse : Statement .frameRpcResponse := ⟨rfl, by decide⟩
theorem cmdWifiSettings : Statement .cmdWifiSettings := ⟨rfl, by decide⟩
theorem cmdGetCurrentState : Statement .cmdGetCurrentState := ⟨rfl, by decide⟩
theorem cmdGetDeviceInfo : Statement .cmdGetDeviceInfo := ⟨rfl, by decide⟩
theorem cmdGetWifiNetworks : Statement .cmdGetWifiNetworks := ⟨rfl, by decide⟩
theorem cmdUnknown (id : Byte) : Statement (.cmdUnknown id) := ⟨rfl, fun _ h => by cases h⟩
theorem stateStopped : Statement .stateStopped := ⟨rfl, by decide⟩
theorem stateAuthorized : Statement .stateAuthorized := ⟨rfl, by decide⟩
theorem stateProvisioning : Statement .stateProvisioning := ⟨rfl, by decide⟩
theorem stateProvisioned : Statement .stateProvisioned := ⟨rfl, by decide⟩
theorem errorNone : Statement .errorNone := ⟨rfl, by decide⟩
theorem errorInvalidRpc : Statement .errorInvalidRpc := ⟨rfl, by decide⟩
theorem errorUnknownRpc : Statement .errorUnknownRpc := ⟨rfl, by decide⟩
theorem errorUnableToConnect : Statement .errorUnableToConnect := ⟨rfl, by decide⟩
theorem errorNotAuthorized : Statement .errorNotAuthorized := ⟨rfl, by decide⟩

end Sys2Proof.Laws.RowMatch
end

