-- ==== Sys2Proof/Laws/Sum.lean ====
section
/-! SUPPORT. The laws of the checksum (R100) that other proofs build on. -/

namespace Sys2Proof.Machine

@[simp] theorem sum8_nil : sum8 [] = 0#8 := rfl

@[simp] theorem sum8_cons (b : Byte) (x : Bytes) : sum8 (b :: x) = b + sum8 x := by
  apply BitVec.eq_of_toNat_eq
  simp [sum8, BitVec.toNat_add]

@[simp] theorem sum8_append (x y : Bytes) : sum8 (x ++ y) = sum8 x + sum8 y := by
  induction x with
  | nil => simp
  | cons b x ih => simp [ih, BitVec.add_assoc]

/-- R100: the sum over the integers, mod 256. -/
theorem sum8_toNat (x : Bytes) : (sum8 x).toNat = (x.map BitVec.toNat).sum % 256 := by
  simp [sum8]

end Sys2Proof.Machine
end

