-- ==== Sys2Proof/Tests/Slice0.lean ====
section
/-! SUPPORT. Tests of the model, on values of spec/95_test_vectors.md (named in each docstring) or of the rule named, and
one witness for the hypotheses of every statement of the obligations. -/

namespace Sys2Proof.Tests

open Sys2Proof Sys2Proof.Machine

/-! ### Small states, and what a test looks at -/

/-- The reset state after the bytes `bs` of an attempt have been accepted. -/
def mid (bs : Bytes) : State :=
  { State.reset with
    p := bs.length
    sum := sum8 bs
    buf := bs.zipIdx.map fun c => (c.2, c.1) }

/-- The header of an accepted frame under DP, up to its type byte. -/
def hdr : Bytes := [0x49#8, 0x4D#8, 0x50#8, 0x52#8, 0x4F#8, 0x56#8, 0x01#8, 0x03#8]

/-- The reset state with requests presented. -/
def presented (xs : List Presented) : State := { State.reset with requests := xs }

/-- The next state of an outcome. -/
def nextOf : Host.Outcome State Fault Refusal → Option State
  | .next t => some t
  | .fault _ => none
  | .refused _ => none

/-- The last response of a next state. -/
def lastOf (o : Host.Outcome State Fault Refusal) : Option Response := (nextOf o).bind fun t => t.responses.getLast?

/-- `p` and `sum` of a next state. -/
def psOf (o : Host.Outcome State Fault Refusal) : Option (Nat × Byte) := (nextOf o).map fun t => (t.p, t.sum)

/-- The fault mark of a next state, and how many responses it holds. -/
def markOf (o : Host.Outcome State Fault Refusal) : Option (Option RequestFaultReason × Nat) :=
  (nextOf o).map fun t => (t.fault, t.responses.length)

/-- The response DONE with data. -/
def done (d : Bytes) : Response := { status := .done, consumed := false, data := d, cmd := none }

/-- A response of RX_BYTE without a command. -/
def rx (st : Status) (c : Bool) : Response := { status := st, consumed := c, data := [], cmd := none }

/-- A COMMAND response. -/
def command (consumed : Bool) (c : Cmd) : Response :=
  { status := .command, consumed := consumed, data := [], cmd := some c }

/-! ### WellFormed: each check refuses an ill-formed term -/

theorem smoke_dp_wellFormed : Cfg.dp.WellFormed := by decide

theorem smoke_cap_refused : ¬ Cfg.WellFormed { Cfg.dp with cap := 264 } := by decide

theorem smoke_type_table_refused : ¬ Cfg.WellFormed { Cfg.dp with typeErrorState := 0x03#8 } := by decide

theorem smoke_cmd_table_refused : ¬ Cfg.WellFormed { Cfg.dp with cmdGetDeviceInfo := 0x01#8 } := by decide

theorem smoke_state_table_refused : ¬ Cfg.WellFormed { Cfg.dp with stateProvisioned := 0x00#8 } := by decide

theorem smoke_error_table_refused : ¬ Cfg.WellFormed { Cfg.dp with errNotAuthorized := 0x00#8 } := by decide

theorem smoke_selector_refused : Instr.wellFormed Cfg.dp (.encError 5#3) = false := by decide

theorem smoke_response_ceiling_refused :
    Instr.wellFormed Cfg.dp (.encRpcResponse true .getCurrentState [List.replicate 253 0x41#8]) = false := by
  decide +kernel

theorem smoke_payload_ceiling_refused :
    Instr.wellFormed Cfg.dp (.decodeRpcCommand (List.replicate 256 0#8)) = false := by decide +kernel

theorem smoke_known_id_refused : Instr.wellFormed Cfg.dp (.cmdUnknown 0x04#8) = false := by decide

/-! ### Decode: words written out from R61, R62, R65 to R67, R85 and the wire values of R11 to R14 -/

/-- OP 000; the ARG field is zero. -/
theorem test_decode_reset : decode Cfg.dp (.request 0b000_0000_0_00000000#16 .absent) = .ok .reset := by rfl

/-- OP 001; ARG is the byte. -/
theorem test_decode_rxByte : decode Cfg.dp (.request 0b001_0000_0_11100101#16 .absent) = .ok (.rxByte 0xE5#8) := by rfl

/-- OP 010; `ssel` 10 is PROVISIONING. -/
theorem test_decode_encState :
    decode Cfg.dp (.request 0b010_0000_0_00000010#16 .absent) = .ok (.encState .provisioning) := by rfl

/-- OP 011; `esel` 100 is NOT_AUTHORIZED. -/
theorem test_decode_encError : decode Cfg.dp (.request 0b011_0000_0_00000100#16 .absent) = .ok (.encError 4#3) ∧
    errorOfSel 4#3 = some .notAuthorized := ⟨rfl, rfl⟩

/-- OP 100; IC 1; `csel` 10 is GET_DEVICE_INFO. -/
theorem test_decode_encRpcResponse : decode Cfg.dp (.request 0b100_0000_1_00000010#16 (.fields [[0x66#8]])) =
    .ok (.encRpcResponse true .getDeviceInfo [[0x66#8]]) := by rfl

/-- OP 101. -/
theorem test_decode_checksum :
    decode Cfg.dp (.request 0b101_0000_0_00000000#16 (.bytes [1#8])) = .ok (.checksum [1#8]) := by rfl

/-- OP 110. -/
theorem test_decode_decodeRpcCommand :
    decode Cfg.dp (.request 0b110_0000_0_00000000#16 (.bytes [2#8])) = .ok (.decodeRpcCommand [2#8]) := by rfl

/-- OP 111; the other bits are free. -/
theorem test_decode_reservedOp :
    decode Cfg.dp (.request 0b111_1111_1_11111111#16 .absent) = .ok (.reservedOp 0b1111111111111#13) := by rfl

/-- The four type bytes (R11). -/
theorem test_decode_frame_types :
    decode Cfg.dp (.wire .frameType 0x01#8) = .ok .frameCurrentState ∧
    decode Cfg.dp (.wire .frameType 0x02#8) = .ok .frameErrorState ∧
    decode Cfg.dp (.wire .frameType 0x03#8) = .ok .frameRpcCommand ∧
    decode Cfg.dp (.wire .frameType 0x04#8) = .ok .frameRpcResponse := ⟨rfl, rfl, rfl, rfl⟩

/-- The command ids (R12), and 0x07, which is none (V-DC-07). -/
theorem test_decode_commands :
    decode Cfg.dp (.wire .command 0x01#8) = .ok .cmdWifiSettings ∧
    decode Cfg.dp (.wire .command 0x02#8) = .ok .cmdGetCurrentState ∧
    decode Cfg.dp (.wire .command 0x03#8) = .ok .cmdGetDeviceInfo ∧
    decode Cfg.dp (.wire .command 0x04#8) = .ok .cmdGetWifiNetworks ∧
    decode Cfg.dp (.wire .command 0x07#8) = .ok (.cmdUnknown 0x07#8) := ⟨rfl, rfl, rfl, rfl, rfl⟩

/-- The state codes (R13). -/
theorem test_decode_states :
    decode Cfg.dp (.wire .state 0x00#8) = .ok .stateStopped ∧
    decode Cfg.dp (.wire .state 0x02#8) = .ok .stateAuthorized ∧
    decode Cfg.dp (.wire .state 0x03#8) = .ok .stateProvisioning ∧
    decode Cfg.dp (.wire .state 0x04#8) = .ok .stateProvisioned := ⟨rfl, rfl, rfl, rfl⟩

/-- The error codes (R14). -/
theorem test_decode_errors :
    decode Cfg.dp (.wire .error 0x00#8) = .ok .errorNone ∧
    decode Cfg.dp (.wire .error 0x01#8) = .ok .errorInvalidRpc ∧
    decode Cfg.dp (.wire .error 0x02#8) = .ok .errorUnknownRpc ∧
    decode Cfg.dp (.wire .error 0x03#8) = .ok .errorUnableToConnect ∧
    decode Cfg.dp (.wire .error 0x04#8) = .ok .errorNotAuthorized := ⟨rfl, rfl, rfl, rfl, rfl⟩

/-- V-CS-08, V-CS-09, V-ST-04, V-ST-06, V-ER-07, V-ER-08, V-RR-13, V-RR-14, V-DC-22, V-RX-17, V-RS-03, V-RS-04. -/
theorem test_decode_reserved_bits :
    [0xA001#16, 0xA100#16, 0x4004#16, 0x4200#16, 0x6008#16, 0x6105#16, 0x8104#16, 0x8300#16, 0xC001#16, 0x2149#16,
      0x0001#16, 0x0100#16].map (fun w => markOf (step (presented [.request w .absent]))) =
      List.replicate 12 (some (some .reservedBits, 0)) := by decide

/-- R87, numbered as the table numbers bits: request rows of 16 bits, wire rows of 8. -/
theorem test_decodeTableWord :
    decodeTableWord 16 0x2049 = some (.rxByte 0x49#8) ∧ decodeTableWord 16 0x8101 =
      some (.encRpcResponse true .wifiSettings []) ∧ decodeTableWord 16 0xE000 = some (.reservedOp 0#13) ∧
    decodeTableWord 16 0x4100 = none ∧ decodeTableWord 8 0x03 = some .frameRpcCommand ∧
    decodeTableWord 8 0x07 = some (.cmdUnknown 0x07#8) := by decide

/-- The word placed for the fetch is the one the very next step runs, after reset (R60). -/
theorem test_withFetchWord :
    lastOf (step (State.reset.withFetchWord 16 0x2049)) = some (rx .accepted true) ∧
    psOf (step (State.reset.withFetchWord 16 0x2049)) = some (1, 0x49#8) ∧
    lastOf (step (State.reset.withFetchWord 8 0x03)) = some (rx .rejMagic false) := by decide

/-! ### CHECKSUM -/

/-- V-CS-02: 477 mod 256 = 221. -/
theorem test_checksum_magic :
    lastOf (exec (.checksum [0x49#8, 0x4D#8, 0x50#8, 0x52#8, 0x4F#8, 0x56#8]) State.reset) = some (done [0xDD#8]) := by decide

/-- V-CS-04: the sum wraps. -/
theorem test_checksum_wraps : lastOf (exec (.checksum [0xFF#8, 0xFF#8]) State.reset) = some (done [0xFE#8]) := by decide

/-! ### Encoders -/

/-- V-ST-02. -/
theorem test_encState_provisioning : lastOf (exec (.encState .provisioning) State.reset) =
    some (done [0x49#8, 0x4D#8, 0x50#8, 0x52#8, 0x4F#8, 0x56#8, 0x01#8, 0x01#8, 0x01#8, 0x03#8, 0xE3#8]) := by decide

/-- V-ST-01, and V-IL-01: `p` and `sum` stay as they were mid-frame. -/
theorem test_encState_mid_frame :
    lastOf (exec (.encState .authorized) (mid [0x49#8, 0x4D#8, 0x50#8])) =
      some (done [0x49#8, 0x4D#8, 0x50#8, 0x52#8, 0x4F#8, 0x56#8, 0x01#8, 0x01#8, 0x01#8, 0x02#8, 0xE2#8]) ∧
    psOf (exec (.encState .authorized) (mid [0x49#8, 0x4D#8, 0x50#8])) = some (3, 0xE6#8) := by decide

/-- V-ER-04. -/
theorem test_encError_notAuthorized : lastOf (exec (.encError 4#3) State.reset) =
    some (done [0x49#8, 0x4D#8, 0x50#8, 0x52#8, 0x4F#8, 0x56#8, 0x01#8, 0x02#8, 0x01#8, 0x04#8, 0xE5#8]) := by decide

/-- V-ER-05: no response, the mark set. -/
theorem test_encError_reserved_selector :
    markOf (exec (.encError 5#3) State.reset) = some (some .reservedSelector, 0) := by decide

/-- V-RR-08. -/
theorem test_encRpcResponse_fields :
    lastOf (exec (.encRpcResponse true .getDeviceInfo [[0x66#8, 0x77#8], [0x31#8, 0x2E#8, 0x30#8],
      [0x45#8, 0x53#8, 0x50#8, 0x33#8, 0x32#8], [0x64#8, 0x65#8, 0x76#8]]) State.reset) =
      some (done [0x49#8, 0x4D#8, 0x50#8, 0x52#8, 0x4F#8, 0x56#8, 0x01#8, 0x04#8, 0x13#8, 0x03#8, 0x11#8, 0x02#8, 0x66#8,
        0x77#8, 0x03#8, 0x31#8, 0x2E#8, 0x30#8, 0x05#8, 0x45#8, 0x53#8, 0x50#8, 0x33#8, 0x32#8, 0x03#8, 0x64#8, 0x65#8,
        0x76#8, 0x0E#8]) := by decide

/-- V-RR-02 (no checksum byte) and V-RR-11 (over the ceiling by one). -/
theorem test_encRpcResponse_no_checksum :
    lastOf (exec (.encRpcResponse false .getWifiNetworks []) State.reset) =
      some (done [0x49#8, 0x4D#8, 0x50#8, 0x52#8, 0x4F#8, 0x56#8, 0x01#8, 0x04#8, 0x02#8, 0x04#8, 0x00#8]) ∧
    markOf (exec (.encRpcResponse true .getCurrentState [List.replicate 253 0x41#8]) State.reset) =
      some (some .payloadTooLong, 0) := by decide +kernel

/-! ### DECODE_RPC_COMMAND -/

/-- V-DC-14 and V-DC-19: ARG_LENGTH is not compared with the fields, and bytes after the password are ignored. -/
theorem test_decode_wifi_lenient :
    decodeRpc Cfg.dp [0x01#8, 0x00#8, 0x01#8, 0x61#8, 0x00#8] =
      .ok { kind := .wifiSettings, id := 0x01#8, ssid := [0x61#8], password := [] } ∧
    lastOf (exec (.decodeRpcCommand [0x01#8, 0x06#8, 0x04#8, 0x68#8, 0x6F#8, 0x6D#8, 0x65#8, 0x00#8, 0xEE#8, 0xEF#8])
      State.reset) = some (command false ⟨.wifiSettings, 0x01#8, [0x68#8, 0x6F#8, 0x6D#8, 0x65#8], []⟩) :=
  ⟨by rfl, by decide⟩

/-- V-DC-01, V-DC-09 to V-DC-11, V-DC-13, V-DC-15 to V-DC-17: each a DECODE_ERROR. -/
theorem test_decode_errors_all : ∀ pl ∈ [[], [0x01#8], [0x01#8, 0x00#8], [0x01#8, 0x03#8, 0x00#8, 0x01#8, 0x78#8],
    [0x01#8, 0x04#8, 0x01#8, 0x61#8, 0x00#8], [0x01#8, 0x02#8, 0x01#8, 0x61#8],
    [0x01#8, 0x04#8, 0x01#8, 0x61#8, 0x02#8, 0x62#8], [0x01#8, 0x02#8, 0x05#8, 0x61#8, 0x62#8]],
    lastOf (exec (.decodeRpcCommand pl) State.reset) = some (rx .decodeError false) := by decide

/-! ### RX_BYTE, RESET and the reserved OP -/

/-- V-RX-01, its last byte: `consumed` 1 and the command. -/
theorem test_rxByte_completes : lastOf (exec (.rxByte 0xE5#8) (mid (hdr ++ [0x02#8, 0x02#8, 0x00#8]))) =
    some (command true ⟨.getCurrentState, 0x02#8, [], []⟩) ∧
    psOf (exec (.rxByte 0xE5#8) (mid (hdr ++ [0x02#8, 0x02#8, 0x00#8]))) = some (0, 0#8) := by decide

/-- V-RX-08 (an unknown command, not consumed), V-RX-05 (a corrupted checksum), V-RX-07 (a recognised type), V-RX-15 (the
`49` is discarded), V-RX-10 (an empty payload). -/
theorem test_rxByte_outcomes :
    lastOf (exec (.rxByte 0xEA#8) (mid (hdr ++ [0x02#8, 0x07#8, 0x00#8]))) =
      some (command false ⟨.unknown, 0x07#8, [], []⟩) ∧
    lastOf (exec (.rxByte 0xE6#8) (mid (hdr ++ [0x02#8, 0x02#8, 0x00#8]))) = some (rx .checksumError false) ∧
    lastOf (exec (.rxByte 0x01#8) (mid (hdr.take 7))) = some (rx .rejType false) ∧
    psOf (exec (.rxByte 0x49#8) (mid [0x49#8, 0x4D#8, 0x50#8])) = some (0, 0#8) ∧
    lastOf (exec (.rxByte 0xE1#8) (mid (hdr ++ [0x00#8]))) = some (rx .decodeError false) := by decide

/-- V-RS-02. -/
theorem test_reset_mid_frame : lastOf (exec .reset (mid [0x49#8, 0x4D#8])) = some (done []) ∧
    psOf (exec .reset (mid [0x49#8, 0x4D#8])) = some (0, 0#8) := by decide

/-- V-RS-05 and V-RS-06: `p` and `sum` stay, no response. -/
theorem test_reservedOp :
    markOf (step ({ mid [0x49#8, 0x4D#8, 0x50#8] with requests := [.request 0xFFFF#16 .absent] })) =
      some (some .reservedOp, 0) ∧
    psOf (exec (.reservedOp 0#13) (mid [0x49#8, 0x4D#8, 0x50#8])) = some (3, 0xE6#8) := by decide

/-- V-RS-07: no step from a state whose mark is set. -/
theorem test_fault_no_step :
    step { presented [.request 0x0000#16 .absent] with fault := some .reservedSelector } =
      .fault (.requestFault .reservedSelector) := by rfl

/-! ### The wire-code rows -/

/-- R174: at offset 7 only RPC_COMMAND is accepted. -/
theorem test_frame_types_at_offset_7 :
    lastOf (exec .frameRpcCommand (mid (hdr.take 7))) = some (rx .accepted true) ∧
    psOf (exec .frameRpcCommand (mid (hdr.take 7))) = some (8, 0xE1#8) ∧
    lastOf (exec .frameCurrentState (mid (hdr.take 7))) = some (rx .rejType false) ∧
    lastOf (exec .frameErrorState (mid (hdr.take 7))) = some (rx .rejType false) ∧
    lastOf (exec .frameRpcResponse (mid (hdr.take 7))) = some (rx .rejType false) := by decide

/-- Program 1 row 11 and its like: each command id is stored at payload offset 0; the sums are E3 plus the id. -/
theorem test_commands_at_payload_start :
    psOf (exec .cmdWifiSettings (mid (hdr ++ [0x02#8]))) = some (10, 0xE4#8) ∧
    psOf (exec .cmdGetCurrentState (mid (hdr ++ [0x02#8]))) = some (10, 0xE5#8) ∧
    psOf (exec .cmdGetDeviceInfo (mid (hdr ++ [0x02#8]))) = some (10, 0xE6#8) ∧
    psOf (exec .cmdGetWifiNetworks (mid (hdr ++ [0x02#8]))) = some (10, 0xE7#8) ∧
    psOf (exec (.cmdUnknown 0x07#8) (mid (hdr ++ [0x02#8]))) = some (10, 0xEA#8) := by decide

/-- As V-L1-1 and V-RX-03: a state code between frames is a byte like any other and gives REJ_MAGIC at `p = 0`; the
VERSION position (value 01) rejects 00, 02, 03 and 04. -/
theorem test_state_codes_received :
    (∀ i ∈ [Instr.stateStopped, .stateAuthorized, .stateProvisioning, .stateProvisioned],
      lastOf (exec i State.reset) = some (rx .rejMagic false)) ∧
    ∀ i ∈ [Instr.stateStopped, .stateAuthorized, .stateProvisioning, .stateProvisioned],
      lastOf (exec i (mid (hdr.take 6))) = some (rx .rejVersion false) := by decide

/-- As V-L1-1: REJ_MAGIC at `p = 0`; and at the length position each error code is stored: the sum after the type byte
is E1. -/
theorem test_error_codes_received :
    (∀ i ∈ [Instr.errorNone, .errorInvalidRpc, .errorUnknownRpc, .errorUnableToConnect, .errorNotAuthorized],
      lastOf (exec i State.reset) = some (rx .rejMagic false)) ∧
    [Instr.errorNone, .errorInvalidRpc, .errorUnknownRpc, .errorUnableToConnect, .errorNotAuthorized].map
      (fun i => psOf (exec i (mid hdr))) =
      [some (9, 0xE1#8), some (9, 0xE2#8), some (9, 0xE3#8), some (9, 0xE4#8), some (9, 0xE5#8)] := by decide

/-! ### Witnesses: for every statement with hypotheses, values that meet them, at the boundaries of their ranges -/

/-- The attempt of V-RX-01 before its checksum byte: `L = 2`, `p = 11`. -/
def atChecksum : State := mid (hdr ++ [0x02#8, 0x02#8, 0x00#8])

/-- The same attempt with one payload byte to come: `p = 10`. -/
def atPayload : State := mid (hdr ++ [0x02#8, 0x02#8])

/-- The longest attempt before its checksum byte: `L = 255`, `p = 264` (V-RX-14). -/
def atLongest : State := mid (hdr ++ [0xFF#8, 0x02#8] ++ List.replicate 254 0x00#8)

/-- An attempt at its length byte under a capacity no well-formed `Cfg` has. -/
def tooSmall : State := { mid hdr with cfg := { Cfg.dp with cap := 8 } }

theorem witness_reset_inv : State.reset.Inv where
  cfgWf := by decide
  bufWf := by decide
  bufBound := by decide
  posBound := by decide
  sumOk := by decide
  lenBound := by intro h; exact absurd h (by decide)
  magicOk := by decide
  versionOk := by decide
  typeOk := by decide

theorem witness_atChecksum_inv : atChecksum.Inv where
  cfgWf := by decide
  bufWf := by decide
  bufBound := by decide
  posBound := by decide
  sumOk := by decide
  lenBound := by
    intro _ l h
    obtain rfl : 0x02#8 = l := Option.some.inj h
    decide
  magicOk := by decide
  versionOk := by decide
  typeOk := by decide

theorem witness_atPayload_inv : atPayload.Inv where
  cfgWf := by decide
  bufWf := by decide
  bufBound := by decide
  posBound := by decide
  sumOk := by decide
  lenBound := by
    intro _ l h
    obtain rfl : 0x02#8 = l := Option.some.inj h
    decide
  magicOk := by decide
  versionOk := by decide
  typeOk := by decide

theorem witness_atLongest_inv : atLongest.Inv where
  cfgWf := by decide
  bufWf := by decide +kernel
  bufBound := by decide +kernel
  posBound := by decide +kernel
  sumOk := by decide +kernel
  lenBound := by
    intro _ l h
    obtain rfl : 0xFF#8 = l := Option.some.inj h
    decide +kernel
  magicOk := by decide +kernel
  versionOk := by decide +kernel
  typeOk := by decide +kernel

theorem witness_ResetRequestEffect :
    (0x0001#16 &&& 0xE000#16 = 0x0000#16 ∧ 0x0001#16 ≠ 0x0000#16) ∧
    0x1FFF#16 &&& 0xE000#16 = 0x0000#16 ∧ 0x1FFF#16 ≠ 0x0000#16 := by decide

theorem witness_ReservedOpRaisesFault :
    0xE000#16 &&& 0xE000#16 = 0xE000#16 ∧ 0xFFFF#16 &&& 0xE000#16 = 0xE000#16 := by decide

theorem witness_ChecksumRequestAnswers : 0xA001#16 &&& 0xE000#16 = 0xA000#16 ∧ 0xA001#16 &&& 0x1FFF#16 ≠ 0 := by decide

theorem witness_ChecksumDetectionLaws :
    (0x03#8 ≠ [0x01#8, 0x02#8][(0 : Fin 2)]) ∧ [0x01#8, 0x02#8].Perm [0x02#8, 0x01#8] ∧ (0 : Fin 2) ≠ 1 := by decide

theorem witness_EncodeStateFrame :
    ((ProvState.stopped, State.reset.cfg.stateStopped) ∈ [(ProvState.stopped, State.reset.cfg.stateStopped),
      (.authorized, State.reset.cfg.stateAuthorized), (.provisioning, State.reset.cfg.stateProvisioning),
      (.provisioned, State.reset.cfg.stateProvisioned)]) ∧
    0x4004#16 &&& 0xE000#16 = 0x4000#16 ∧ 0x4004#16 &&& 0x1FFC#16 ≠ 0 := by decide

theorem witness_EncodeErrorFrame :
    ((4#3, State.reset.cfg.errNotAuthorized) ∈ [(0#3, State.reset.cfg.errNone), (1#3, State.reset.cfg.errInvalidRpc),
      (2#3, State.reset.cfg.errUnknownRpc), (3#3, State.reset.cfg.errUnableToConnect),
      (4#3, State.reset.cfg.errNotAuthorized)]) ∧
    (4 < (5#3).toNat ∧ 4 < (7#3).toNat) ∧
    0x6008#16 &&& 0xE000#16 = 0x6000#16 ∧ 0x6008#16 &&& 0x1FF8#16 ≠ 0 := by decide

/-- V-RR-10 and V-RR-11: the ceiling exactly, and one over it. -/
theorem witness_EncodeRpcResponseFrame :
    ((Command.getWifiNetworks, State.reset.cfg.cmdGetWifiNetworks) ∈
      [(Command.getCurrentState, State.reset.cfg.cmdGetCurrentState), (.wifiSettings, State.reset.cfg.cmdWifiSettings),
        (.getDeviceInfo, State.reset.cfg.cmdGetDeviceInfo), (.getWifiNetworks, State.reset.cfg.cmdGetWifiNetworks)]) ∧
    2 + ([List.replicate 252 0x41#8].map fun x => 1 + x.length).sum = 255 ∧
    2 + ([List.replicate 253 0x41#8].map fun x => 1 + x.length).sum = 256 ∧
    ((Command.getWifiNetworks, 3) ∈
      [(Command.getCurrentState, 0), (.wifiSettings, 1), (.getDeviceInfo, 2), (.getWifiNetworks, 3)]) ∧
    0x8104#16 &&& 0xE000#16 = 0x8000#16 ∧ 0x8104#16 &&& 0x1EFC#16 ≠ 0 := by decide +kernel

theorem witness_ResponsePayloadDeterminesFields :
    Cfg.dp.WellFormed ∧ 2 + totalLen [List.replicate 252 0x41#8] ≤ 255 ∧
    responsePayload Cfg.dp .getCurrentState [List.replicate 252 0x41#8] =
      responsePayload Cfg.dp .getCurrentState [List.replicate 252 0x41#8] := by decide +kernel

theorem witness_EncoderOutputChecksumAndRejection :
    (∃ t r, exec (.encState .stopped) State.reset = .next t ∧ t.responses = State.reset.responses ++ [r]) ∧
    (∃ t r, exec (.encRpcResponse true .wifiSettings []) State.reset = .next t ∧
      t.responses = State.reset.responses ++ [r]) ∧
    State.reset.cfg.WellFormed ∧ State.reset.p = 0 := ⟨⟨_, _, rfl, rfl⟩, ⟨_, _, rfl, rfl⟩, by decide, rfl⟩

theorem witness_SentFrameLengths : (4#3).toNat ≤ 4 ∧ 2 + totalLen [List.replicate 252 0x41#8] ≤ 255 := by decide +kernel

theorem witness_CodecRequestsIgnoreParser : ∃ d, Instr.checksum [] = .checksum d := ⟨[], rfl⟩

/-- V-DC-20 (the largest payload) and V-DC-21. -/
theorem witness_DecodeRequestAnswers :
    ([0x01#8, 0xFD#8, 0x01#8, 0x61#8, 0xFA#8] ++ List.replicate 250 0x62#8).length = 255 ∧
    (decodeRpc Cfg.dp ([0x01#8, 0xFD#8, 0x01#8, 0x61#8, 0xFA#8] ++ List.replicate 250 0x62#8)).toOption =
      some ⟨.wifiSettings, 0x01#8, [0x61#8], List.replicate 250 0x62#8⟩ ∧
    decodeRpc Cfg.dp [] = .error .invalidRpc ∧ (List.replicate 256 0#8).length = 256 ∧
    0xC001#16 &&& 0xE000#16 = 0xC000#16 ∧ 0xC001#16 &&& 0x1FFF#16 ≠ 0 :=
  ⟨by decide +kernel, by decide +kernel, rfl, by decide +kernel, by decide, by decide⟩

/-- V-DC-07, V-DC-08 and V-DC-12. -/
theorem witness_DecoderCommandKinds :
    Cfg.dp.WellFormed ∧ 0x07#8 ∉ Cfg.dp.cmdTable ∧ 0x00#8 ∉ Cfg.dp.cmdTable ∧
    decodeRpc Cfg.dp (Cfg.dp.cmdWifiSettings :: [0x03#8, 0x01#8, 0x61#8, 0x00#8]) =
      .ok ⟨.wifiSettings, 0x01#8, [0x61#8], []⟩ := ⟨by decide, by decide, by decide, rfl⟩

/-- V-DC-12, which decodes, and V-DC-11, which does not. -/
theorem witness_WifiSettingsDecodeLayout :
    Cfg.dp.WellFormed ∧ [0x01#8, 0x03#8, 0x01#8, 0x61#8, 0x00#8][0]? = some Cfg.dp.cmdWifiSettings ∧
    decodeRpc Cfg.dp [0x01#8, 0x03#8, 0x01#8, 0x61#8, 0x00#8] = .ok ⟨.wifiSettings, 0x01#8, [0x61#8], []⟩ ∧
    [0x01#8, 0x03#8, 0x00#8, 0x01#8, 0x78#8][0]? = some Cfg.dp.cmdWifiSettings ∧
    decodeRpc Cfg.dp [0x01#8, 0x03#8, 0x00#8, 0x01#8, 0x78#8] = .error .invalidRpc :=
  ⟨by decide, rfl, rfl, rfl, rfl⟩

theorem witness_WifiPayloadRoundTrip :
    Cfg.dp.WellFormed ∧ [0x61#8] ≠ ([] : Bytes) ∧ (wifiPayload Cfg.dp [0x61#8] (List.replicate 250 0x62#8)).length = 255 := by
  decide +kernel

/-- Positions 0 and 5, a byte that passes and one that does not. -/
theorem witness_MagicPositions :
    (State.reset.cfg.WellFormed ∧ State.reset.p = 0 ∧ State.reset.sum = 0#8 ∧ magic[0]? = some 0x49#8 ∧ 0x4D#8 ≠ 0x49#8) ∧
    (mid (hdr.take 5)).cfg.WellFormed ∧ (mid (hdr.take 5)).p = 5 ∧ magic[5]? = some 0x56#8 ∧ magic[5]? ≠ some 0x49#8 := by
  decide

theorem witness_VersionAndTypePositions :
    ((mid (hdr.take 6)).cfg.WellFormed ∧ (mid (hdr.take 6)).p = 6 ∧ 0x01#8 = (mid (hdr.take 6)).cfg.version ∧
      0x02#8 ≠ (mid (hdr.take 6)).cfg.version) ∧
    (mid (hdr.take 7)).p = 7 ∧ 0x03#8 = (mid (hdr.take 7)).cfg.typeRpcCommand ∧
      0x05#8 ≠ (mid (hdr.take 7)).cfg.typeRpcCommand ∧
      0x01#8 ∈ [(mid (hdr.take 7)).cfg.typeCurrentState, (mid (hdr.take 7)).cfg.typeErrorState,
        (mid (hdr.take 7)).cfg.typeRpcResponse] := by decide

/-- Position 8; the first and the last payload position, and the last one of the longest frame; and `L = 0`. -/
theorem witness_LengthAndPayloadPositions :
    ((mid hdr).cfg.WellFormed ∧ (mid hdr).p = 8) ∧
    ((mid (hdr ++ [0x02#8])).buf.read 8 = some 0x02#8 ∧ (mid (hdr ++ [0x02#8])).p = 9) ∧
    (atPayload.buf.read 8 = some 0x02#8 ∧ atPayload.p = 8 + (0x02#8).toNat) ∧
    ((mid (hdr ++ [0xFF#8] ++ List.replicate 254 0#8)).buf.read 8 = some 0xFF#8 ∧
      (mid (hdr ++ [0xFF#8] ++ List.replicate 254 0#8)).p = 8 + (0xFF#8).toNat) ∧
    (mid (hdr ++ [0x00#8])).buf.read 8 = some 0#8 ∧ (mid (hdr ++ [0x00#8])).p = 9 ∧
      0xE1#8 = (mid (hdr ++ [0x00#8])).sum := by decide +kernel

/-- The shortest, a short and the longest frame, each with a byte that differs. -/
theorem witness_ChecksumMismatchRejected :
    (atChecksum.buf.read 8 = some 0x02#8 ∧ atChecksum.p = 9 + (0x02#8).toNat ∧ 0xE6#8 ≠ atChecksum.sum) ∧
    (atLongest.buf.read 8 = some 0xFF#8 ∧ atLongest.p = 9 + (0xFF#8).toNat ∧ 0x00#8 ≠ atLongest.sum) ∧
    (mid (hdr ++ [0x00#8])).buf.read 8 = some 0x00#8 ∧ (mid (hdr ++ [0x00#8])).p = 9 + (0x00#8).toNat ∧
      0x00#8 ≠ (mid (hdr ++ [0x00#8])).sum := by decide +kernel

/-- V-RX-01, V-RX-14 and V-RX-10. -/
theorem witness_FrameCompletion :
    (atChecksum.buf.read 8 = some 0x02#8 ∧ atChecksum.p = 9 + (0x02#8).toNat ∧ 0xE5#8 = atChecksum.sum ∧
      atChecksum.buf.readRange 9 (0x02#8).toNat = some [0x02#8, 0x00#8] ∧
      decodeRpc atChecksum.cfg [0x02#8, 0x00#8] = .ok ⟨.getCurrentState, 0x02#8, [], []⟩) ∧
    (atLongest.p = 9 + (0xFF#8).toNat ∧ 0xE2#8 = atLongest.sum ∧
      atLongest.buf.readRange 9 (0xFF#8).toNat = some (0x02#8 :: List.replicate 254 0x00#8)) ∧
    (mid (hdr ++ [0x00#8])).buf.read 8 = some 0x00#8 ∧ 0xE1#8 = (mid (hdr ++ [0x00#8])).sum ∧
      (mid (hdr ++ [0x00#8])).buf.readRange 9 (0x00#8).toNat = some [] ∧ decodeRpc Cfg.dp [] = .error .invalidRpc :=
  ⟨⟨rfl, rfl, by decide, rfl, rfl⟩, by decide +kernel, rfl, by decide, rfl, rfl⟩

/-- An accepted byte, a rejected one and a completed command. -/
theorem witness_RxOutcomesAndConsumed :
    (∃ t, exec (.rxByte 0x49#8) State.reset = .next t) ∧ (∃ t, exec (.rxByte 0x00#8) State.reset = .next t) ∧
    ∃ t, exec (.rxByte 0xE5#8) atChecksum = .next t := ⟨⟨_, rfl⟩, ⟨_, rfl⟩, ⟨_, rfl⟩⟩

theorem witness_CapacityOverflow :
    (tooSmall.ToStore 0x02#8 ∧ tooSmall.cfg.cap ≤ tooSmall.p) ∧
    atLongest.Inv ∧ ∃ t, exec (.rxByte 0xE2#8) atLongest = .next t := by
  refine ⟨⟨.inr (.inr (.inr (.inl (by decide)))), by decide⟩, witness_atLongest_inv, ?_⟩
  have hs : (nextOf (exec (.rxByte 0xE2#8) atLongest)).isSome = true := by decide +kernel
  cases h : exec (.rxByte 0xE2#8) atLongest with
  | next t => exact ⟨t, rfl⟩
  | fault r => rw [h] at hs; cases hs
  | refused r => rw [h] at hs; cases hs

/-- A byte to be stored and one that is not. -/
theorem witness_RxByteAlwaysAnswers :
    atPayload.Inv ∧ atPayload.ToStore 0x00#8 ∧ atChecksum.Inv ∧ ¬ atChecksum.ToStore 0xE5#8 := by
  refine ⟨witness_atPayload_inv, .inr (.inr (.inr (.inr ⟨by decide, 0x02#8, rfl, by decide⟩))), witness_atChecksum_inv, ?_⟩
  rintro (⟨h, -⟩ | ⟨h, -⟩ | ⟨h, -⟩ | h | ⟨-, l, hl, h⟩)
  · exact absurd h (by decide)
  · exact absurd h (by decide)
  · exact absurd h (by decide)
  · exact absurd h (by decide)
  · obtain rfl : 0x02#8 = l := Option.some.inj hl
    exact absurd h (by decide)

/-- The invariant's states, and a step from one of them. -/
theorem witness_StepKeepsInvariant :
    State.reset.Inv ∧ atLongest.Inv ∧ (∃ t, step State.reset = .next t) ∧ State.reset.ToStore 0x49#8 :=
  ⟨witness_reset_inv, witness_atLongest_inv, ⟨_, rfl⟩, .inl ⟨by decide, rfl⟩⟩

theorem witness_ReceivedFrameRoundTrip :
    State.reset.cfg.WellFormed ∧ State.reset.p = 0 ∧ State.reset.sum = 0#8 ∧ (List.replicate 255 0#8).length = 255 := by
  decide +kernel

/-- V-RX-04 and V-RX-05. -/
theorem witness_CorruptedFrameRejected :
    State.reset.cfg.WellFormed ∧ State.reset.p = 0 ∧ State.reset.sum = 0#8 ∧
    0x03#8 ≠ [0x02#8, 0x00#8][(0 : Fin 2)] ∧ 0xE6#8 ≠ sum8 (frameBytes State.reset.cfg .rpcCommand [0x02#8, 0x00#8]) := by
  decide

theorem witness_Resynchronisation :
    State.reset.cfg.WellFormed ∧ State.reset.p = 0 ∧ State.reset.sum = 0#8 ∧ 0x49#8 ∉ [0x00#8, 0xFF#8, 0x13#8] ∧
    (1 ≤ 1 ∧ 5 ≤ 5) := by decide

theorem witness_CommandOnlyAtChecksumPosition :
    atChecksum.Inv ∧ ∃ t, exec (.rxByte 0xE5#8) atChecksum = .next t ∧ t.responses = atChecksum.responses ++
      [command true ⟨.getCurrentState, 0x02#8, [], []⟩] := ⟨witness_atChecksum_inv, _, rfl, rfl⟩

/-- Two states that differ in a byte at or over `p` and in what was answered before. -/
theorem witness_HiddenBufferUnobservable :
    State.reset.Inv ∧ State.Inv { State.reset with buf := [(3, 0xAA#8)], responses := [done []] } ∧
    State.AgreeBelow State.reset { State.reset with buf := [(3, 0xAA#8)], responses := [done []] } := by
  refine ⟨witness_reset_inv, ?_, rfl, rfl, fun a h => absurd h (Nat.not_lt_zero a), rfl, rfl⟩
  exact
    { cfgWf := by decide
      bufWf := by decide
      bufBound := by decide
      posBound := by decide
      sumOk := by decide
      lenBound := by intro h; exact absurd h (by decide)
      magicOk := by decide
      versionOk := by decide
      typeOk := by decide }

theorem witness_RequestFaultIsSticky :
    ((presented [.request 0x2149#16 .absent]).cfg.WellFormed ∧ (presented [.request 0x2149#16 .absent]).fault = none ∧
      decode Cfg.dp (.request 0x2149#16 .absent) = .error (.requestFault .reservedBits)) ∧
    (∃ t, exec (.encError 5#3) State.reset = .next t ∧ t.fault ≠ State.reset.fault) ∧
    State.fault { State.reset with fault := some .reservedOp } = some .reservedOp :=
  ⟨⟨by decide, rfl, rfl⟩, ⟨_, rfl, by decide⟩, rfl⟩

theorem witness_ReservedBitsRejected :
    (presented [.request 0x0200#16 .absent]).cfg.WellFormed ∧ (presented [.request 0x0200#16 .absent]).fault = none ∧
    (0x0200#16 &&& 0xE000#16 ≠ 0xE000#16 ∧ 0x0200#16 &&& 0x1E00#16 ≠ 0) ∧
    0x4100#16 &&& 0xE000#16 ≠ 0xE000#16 ∧ 0x4100#16 &&& 0x0100#16 ≠ 0 ∧ 0x4100#16 &&& 0xE000#16 ≠ 0x8000#16 := by decide

/-- V-RS-06, V-ER-08, V-ER-05, V-RR-11 and V-DC-21, for the clauses in order. -/
theorem witness_FaultReasonPriority :
    (presented [.request 0xFFFF#16 .absent]).cfg.WellFormed ∧ (presented [.request 0xFFFF#16 .absent]).fault = none ∧
    0xFFFF#16 &&& 0xE000#16 = 0xE000#16 ∧
    (0x6105#16 &&& 0xE000#16 ≠ 0xE000#16 ∧ reservedBitsSet 0x6105#16 = true) ∧
    (0x6005#16 &&& 0xE000#16 = 0x6000#16 ∧ reservedBitsSet 0x6005#16 = false ∧ 4 < (0x6005#16 &&& 0x0007#16).toNat) ∧
    (0x8100#16 &&& 0xE000#16 = 0x8000#16 ∧ reservedBitsSet 0x8100#16 = false ∧
      255 < 2 + totalLen [List.replicate 253 0x41#8]) ∧
    0xC000#16 &&& 0xE000#16 = 0xC000#16 ∧ reservedBitsSet 0xC000#16 = false ∧ 255 < (List.replicate 256 0#8).length := by
  decide +kernel

theorem witness_StepRunsDecoded :
    (presented [.request 0x2049#16 .absent]).cfg.WellFormed ∧ (presented [.request 0x2049#16 .absent]).fault = none ∧
    decode Cfg.dp (.request 0x2049#16 .absent) = .ok (.rxByte 0x49#8) := ⟨by decide, rfl, rfl⟩

theorem witness_StepWaitsForRequest :
    State.reset.cfg.WellFormed ∧ State.reset.fault = none ∧ State.reset.requests = [] := by decide

theorem witness_StepKeepsCfgAndMark : ∃ t, step (presented [.request 0x2049#16 .absent]) = .next t := ⟨_, rfl⟩

theorem witness_OneResponseOrFault :
    (∃ t, step (presented [.request 0x2049#16 .absent]) = .next t) ∧
    ∃ t, step (presented [.request 0xE000#16 .absent]) = .next t := ⟨⟨_, rfl⟩, ⟨_, rfl⟩⟩

theorem witness_DecodeEncodeRoundTrip :
    Cfg.dp.WellFormed ∧ Instr.wellFormed Cfg.dp (.encError 4#3) = true ∧
    Instr.wellFormed Cfg.dp (.cmdUnknown 0x05#8) = true ∧
    Instr.wellFormed Cfg.dp (.encRpcResponse true .wifiSettings [List.replicate 252 0x41#8]) = true ∧
    Instr.wellFormed Cfg.dp (.decodeRpcCommand (List.replicate 255 0#8)) = true := by decide +kernel

theorem witness_EncodeDecodeRoundTrip :
    0x8102#16 &&& 0xE000#16 ≠ 0xE000#16 ∧
    decode Cfg.dp (.request 0x8102#16 (.fields [])) = .ok (.encRpcResponse true .getDeviceInfo []) := ⟨by decide, rfl⟩

theorem witness_TypeBytesAtOffsetSeven : (mid (hdr.take 7)).cfg.WellFormed ∧ (mid (hdr.take 7)).p = 7 := by decide

theorem witness_CommandIdsAtPayloadStart :
    (mid (hdr ++ [0x01#8])).cfg.WellFormed ∧ (mid (hdr ++ [0x01#8])).p = 9 ∧
    (mid (hdr ++ [0x01#8])).buf.read 8 = some 0x01#8 ∧ 1 ≤ (0x01#8).toNat := by decide

/-- A row whose byte is stored, and one whose byte ends the attempt. -/
theorem witness_WireCodesAreReceived :
    atPayload.Inv ∧ atPayload.ToStore atPayload.cfg.stateStopped ∧ State.reset.Inv ∧
    ¬ State.reset.ToStore State.reset.cfg.errNotAuthorized := by
  refine ⟨witness_atPayload_inv, .inr (.inr (.inr (.inr ⟨by decide, 0x02#8, rfl, by decide⟩))), witness_reset_inv, ?_⟩
  rintro (⟨-, h⟩ | ⟨h, -⟩ | ⟨h, -⟩ | h | ⟨h, -⟩)
  all_goals exact absurd h (by decide)

/-- A shortest frame presented, and the longest payload. -/
theorem witness_WifiCredentialsDelivered :
    (presented (rxWifi Cfg.dp [0x61#8] [] ++ [])).cfg.WellFormed ∧
    (presented (rxWifi Cfg.dp [0x61#8] [] ++ [])).requests = rxWifi Cfg.dp [0x61#8] [] ++ [] ∧ [0x61#8] ≠ ([] : Bytes) ∧
    (wifiPayload Cfg.dp [0x61#8] (List.replicate 250 0x62#8)).length = 255 := by decide +kernel

end Sys2Proof.Tests
end

section
/-! PROOFS. What a request leaves of the state around it: the configuration, the mark, the requests to come and the
responses already returned (R7, R32, R69, R240); and which configurations are refused (R15). -/

namespace Sys2Proof.Machine

/-! ### One response (R69) -/

/-- R69: `t` has returned one response more than `s`, under the same configuration, mark and requests to come. Of `p`,
`sum` and `B` nothing is said. -/
structure State.AnswersOne (s t : State) : Prop where
  cfg : t.cfg = s.cfg
  fault : t.fault = s.fault
  requests : t.requests = s.requests
  responses : ∃ r, t.responses = s.responses ++ [r]

theorem State.respond_answersOne (s : State) (r : Response) : s.AnswersOne (s.respond r) :=
  ⟨rfl, rfl, rfl, r, rfl⟩

theorem State.endAttempt_answersOne (s : State) (st : Status) (c : Option Cmd) : s.AnswersOne (s.endAttempt st c) :=
  ⟨rfl, rfl, rfl, rxResponse st c, rfl⟩

theorem State.Stored.answersOne {s t : State} {b : Byte} (h : s.Stored b t) : s.AnswersOne t :=
  ⟨h.cfg, h.fault, h.requests, _, h.responses⟩

theorem State.storeByte_answersOne (s : State) (b : Byte) : s.AnswersOne (s.storeByte b) := by
  rcases Nat.lt_or_ge s.p s.cfg.cap with hp | hp
  · exact (State.storeByte_stored hp b).answersOne
  · rw [State.storeByte_overflow hp]
    exact s.endAttempt_answersOne .overflow none

theorem State.completeFrame_answersOne (s : State) (pl : Bytes) : s.AnswersOne (s.completeFrame pl) := by
  rw [State.completeFrame_eq]
  exact ⟨rfl, rfl, rfl, _, rfl⟩

theorem State.receiveByte_answersOne {s t : State} {b : Byte} (h : s.receiveByte b = .next t) : s.AnswersOne t := by
  rcases State.receiveByte_cases h with ⟨-, rfl⟩ | ⟨-, -, rfl⟩ | ⟨-, -, rfl⟩ | ⟨-, -, rfl⟩ |
    ⟨l, -, -, -, ⟨-, rfl⟩ | ⟨-, pl, -, rfl⟩⟩
  · exact s.storeByte_answersOne b
  · exact s.endAttempt_answersOne .rejMagic none
  · exact s.endAttempt_answersOne .rejVersion none
  · exact s.endAttempt_answersOne .rejType none
  · exact s.endAttempt_answersOne .checksumError none
  · exact s.completeFrame_answersOne pl

/-- R69, R240: an instruction that answers a next state returns one response, or raises a request fault. -/
theorem exec_answersOne_or_fault {i : Instr} {s t : State} (h : exec i s = .next t) :
    s.AnswersOne t ∨ ∃ r, t = s.raiseRequestFault r := by
  rcases exec_cases i s with ⟨r, he⟩ | ⟨r, he⟩ | he | ⟨b, he⟩ <;> rw [he] at h
  · cases h; exact .inl (s.respond_answersOne r)
  · cases h; exact .inr ⟨r, rfl⟩
  · cases h; exact .inl ⟨rfl, rfl, rfl, _, rfl⟩
  · exact .inl (State.receiveByte_answersOne h)

/-- A step that answers a next state starts with the mark clear, and waits, or takes one request and returns one response,
or takes one request and raises a request fault. -/
theorem step_waits_or_answersOne_or_fault {s t : State} (h : step s = .next t) :
    s.fault = none ∧
      ((s.requests = [] ∧ t = s) ∨
        ∃ x rest, s.requests = x :: rest ∧
          (State.AnswersOne { s with requests := rest } t ∨ ∃ r, t = { s with requests := rest, fault := some r })) := by
  obtain ⟨-, hf, hw | ⟨x, rest, hx, ⟨i, -, he⟩ | ⟨r, -, rfl⟩⟩⟩ := step_cases h
  · exact ⟨hf, .inl hw⟩
  · exact ⟨hf, .inr ⟨x, rest, hx, exec_answersOne_or_fault he⟩⟩
  · exact ⟨hf, .inr ⟨x, rest, hx, .inr ⟨r, rfl⟩⟩⟩

/-- Settles O39: whatever a step does, it waits, answers one response or raises a fault, and each of the three keeps the
configuration and the responses already returned. -/
theorem stepKeepsCfgAndMark : Obligations.StepKeepsCfgAndMark := by
  intro s t h
  obtain ⟨hf, ⟨-, rfl⟩ | ⟨x, rest, -, ha | ⟨r, rfl⟩⟩⟩ := step_waits_or_answersOne_or_fault h
  · exact ⟨rfl, hf, [], (List.append_nil _).symm, Nat.zero_le 1⟩
  · obtain ⟨r, hr⟩ := ha.responses
    exact ⟨ha.cfg, hf, [r], hr, Nat.le_refl 1⟩
  · exact ⟨rfl, hf, [], (List.append_nil _).symm, Nat.zero_le 1⟩

/-! ### Refusal of a configuration (R15) -/

/-- No instruction is refused once it is decoded: every row has a meaning. -/
theorem exec_not_refused (i : Instr) (s : State) (r : Refusal) : exec i s ≠ .refused r := by
  intro h
  rcases exec_cases i s with ⟨r', he⟩ | ⟨r', he⟩ | he | ⟨b, he⟩ <;> rw [he] at h
  · cases h
  · cases h
  · cases h
  · exact s.receiveByte_not_refused b r h

/-- R83: what a rejected word does is never a refusal of the configuration. -/
theorem rejectRequest_ne_illFormedCfg (r : Reject) (s : State) : rejectRequest r s ≠ .refused .illFormedCfg := by
  intro h
  cases r <;> cases h

/-- R15: the configuration is refused exactly when it fails the check. -/
theorem step_eq_illFormedCfg_iff (s : State) : step s = .refused .illFormedCfg ↔ ¬ s.cfg.WellFormed := by
  by_cases hwf : s.cfg.WellFormed
  · refine iff_of_false (fun h => ?_) (not_not_intro hwf)
    simp only [step, if_pos hwf] at h
    split at h
    next => cases h
    next =>
      split at h
      next => cases h
      next i t _ => exact exec_not_refused i t _ h
      next r t _ => exact rejectRequest_ne_illFormedCfg r t h
  · exact iff_of_true (if_neg hwf) hwf

/-- Settles O38: the five conditions written out are `Cfg.WellFormed`, and each code table of a well-formed configuration
is read back by the lookup's own lemma. -/
theorem illFormedCfgRefused : Obligations.IllFormedCfgRefused :=
  ⟨step_eq_illFormedCfg_iff, fun _ hwf =>
    ⟨Cfg.typeOf?_typeCode hwf, Cfg.commandOf?_cmdCode hwf, Cfg.stateOf?_stateCode hwf, Cfg.errorOf?_errorCode hwf⟩⟩

end Sys2Proof.Machine
end

section
/-! PROOFS. The invariants of R26: they hold at reset (R33) and every step keeps them. -/

namespace Sys2Proof.Machine

/-- Settles O1: the values at power-on are those of `State.reset`, and those after RESET are those of the state it answers. -/
theorem resetValues : Obligations.ResetValues :=
  ⟨⟨rfl, rfl, rfl⟩, fun _ => ⟨_, rfl, rfl, rfl, rfl⟩⟩

/-! ### States with `p = 0`, and fields the invariants do not speak of -/

/-- At `p = 0` and `sum = 0` nothing is claimed of any byte of the buffer. -/
theorem State.inv_of_p_eq_zero {s : State} (hcfg : s.cfg.WellFormed) (hbuf : s.buf.wf)
    (hbound : ∀ c ∈ s.buf, c.1 < s.cfg.cap) (hp : s.p = 0) (hsum : s.sum = 0#8) : s.Inv where
  cfgWf := hcfg
  bufWf := hbuf
  bufBound := hbound
  posBound := by omega
  sumOk := by simp [hp, hsum]
  lenBound := by omega
  magicOk := by simp [hp]
  versionOk := by omega
  typeOk := by omega

/-- Settles O26: the buffer is empty at reset, and `p` and `sum` are 0. -/
theorem invariantAtReset : Obligations.InvariantAtReset :=
  State.inv_of_p_eq_zero (by decide) List.Pairwise.nil (List.forall_mem_nil _) rfl rfl

/-- The invariants do not speak of the mark, the requests to come or the responses returned. -/
theorem State.Inv.withInterface {s : State} (h : s.Inv) (f : Option RequestFaultReason) (rq : List Presented)
    (rs : List Response) : State.Inv { s with fault := f, requests := rq, responses := rs } :=
  ⟨h.cfgWf, h.bufWf, h.bufBound, h.posBound, h.sumOk, h.lenBound, h.magicOk, h.versionOk, h.typeOk⟩

theorem State.Inv.respond {s : State} (h : s.Inv) (r : Response) : (s.respond r).Inv :=
  h.withInterface s.fault s.requests (s.responses ++ [r])

theorem State.Inv.raiseRequestFault {s : State} (h : s.Inv) (r : RequestFaultReason) : (s.raiseRequestFault r).Inv :=
  h.withInterface (some r) s.requests s.responses

theorem State.Inv.clearAttempt {s : State} (h : s.Inv) : s.clearAttempt.Inv :=
  State.inv_of_p_eq_zero h.cfgWf h.bufWf h.bufBound rfl rfl

theorem State.Inv.endAttempt {s : State} (h : s.Inv) (st : Status) (c : Option Cmd) : (s.endAttempt st c).Inv :=
  h.clearAttempt.respond (rxResponse st c)

/-- R178, R179: a completed frame ends the attempt with one response. -/
theorem State.completeFrame_eq_respond (s : State) (pl : Bytes) :
    s.completeFrame pl = s.clearAttempt.respond (completionResponse s.cfg pl) :=
  s.completeFrame_eq pl

theorem State.Inv.completeFrame {s : State} (h : s.Inv) (pl : Bytes) : (s.completeFrame pl).Inv := by
  rw [State.completeFrame_eq_respond]
  exact h.clearAttempt.respond (completionResponse s.cfg pl)

/-! ### Storing a byte (R183) -/

/-- A stored byte is a header byte or a payload byte, so its index is at most `8 + 255`. -/
theorem State.ToStore.p_le {s : State} {b : Byte} (hst : s.ToStore b) : s.p ≤ 263 := by
  rcases hst with ⟨hp, -⟩ | ⟨hp, -⟩ | ⟨hp, -⟩ | hp | ⟨-, l, -, hp⟩
  case inr.inr.inr.inr =>
    have hl := l.isLt
    omega
  all_goals omega

/-- R26(f), for every configuration R15 allows. -/
theorem State.ToStore.p_lt_cap {s : State} {b : Byte} (hst : s.ToStore b) (hcfg : s.cfg.WellFormed) :
    s.p < s.cfg.cap := by
  have hp := hst.p_le
  have hcap := hcfg.1
  omega

/-- What a stored byte passed at its position, one test a position (R172 to R176). -/
theorem State.ToStore.magic_eq {s : State} {b : Byte} (hst : s.ToStore b) (hp : s.p ≤ 5) : magic[s.p]? = some b := by
  rcases hst with ⟨-, hb⟩ | ⟨hp', -⟩ | ⟨hp', -⟩ | hp' | ⟨hp', -⟩
  case inl => exact hb
  all_goals omega

theorem State.ToStore.eq_version {s : State} {b : Byte} (hst : s.ToStore b) (hp : s.p = 6) : b = s.cfg.version := by
  rcases hst with ⟨hp', -⟩ | ⟨-, hb⟩ | ⟨hp', -⟩ | hp' | ⟨hp', -⟩
  case inr.inl => exact hb
  all_goals omega

theorem State.ToStore.eq_typeRpcCommand {s : State} {b : Byte} (hst : s.ToStore b) (hp : s.p = 7) :
    b = s.cfg.typeRpcCommand := by
  rcases hst with ⟨hp', -⟩ | ⟨hp', -⟩ | ⟨-, hb⟩ | hp' | ⟨hp', -⟩
  case inr.inr.inl => exact hb
  all_goals omega

theorem State.ToStore.p_le_of_length {s : State} {b l : Byte} (hst : s.ToStore b) (hp : 9 ≤ s.p)
    (hl : s.buf.read 8 = some l) : s.p ≤ 8 + l.toNat := by
  rcases hst with ⟨hp', -⟩ | ⟨hp', -⟩ | ⟨hp', -⟩ | hp' | ⟨-, l', hl', hpl⟩
  case inr.inr.inr.inr =>
    obtain rfl : l' = l := Option.some.inj (hl'.symm.trans hl)
    exact hpl
  all_goals omega

/-- R22, R23: one more byte of the attempt, and the sum with it. -/
theorem State.Stored.sumOk {s t : State} {b : Byte} (h : s.Stored b t)
    (hs : (s.buf.readRange 0 s.p).map sum8 = some s.sum) : (t.buf.readRange 0 t.p).map sum8 = some t.sum := by
  obtain ⟨bs, hbs, hsum⟩ := Option.map_eq_some_iff.1 hs
  have hkept : t.buf.readRange 0 s.p = some bs :=
    (Memory.readRange_congr fun a _ ha => h.others a (by omega)).trans hbs
  have hlast : t.buf.read (0 + s.p) = some b := by rw [Nat.zero_add, h.byte]
  rw [h.p, h.sum, Memory.readRange_succ hkept hlast]
  simp [hsum]

/-- R26: a byte that passes its position's check keeps the invariants when it is stored. A clause about a byte below `p`
holds of the byte just stored by its check, and of the others as before. -/
theorem State.Stored.inv {s t : State} {b : Byte} (h : s.Stored b t) (hs : s.Inv) (hst : s.ToStore b)
    (hwf : t.buf.wf) (hbound : ∀ c ∈ t.buf, c.1 < t.cfg.cap) : t.Inv where
  cfgWf := h.cfg ▸ hs.cfgWf
  bufWf := hwf
  bufBound := hbound
  posBound := by
    have hp := hst.p_le
    rw [h.p]
    omega
  sumOk := h.sumOk hs.sumOk
  lenBound hp l hl := by
    rw [h.p] at hp ⊢
    rcases Nat.lt_or_ge s.p 9 with h9 | h9
    · omega
    · rw [h.others 8 (by omega)] at hl
      have hpl := hst.p_le_of_length h9 hl
      omega
  magicOk i hi := by
    rw [h.p] at hi
    rcases eq_or_ne i s.p with rfl | hne
    · rw [h.byte, hst.magic_eq (by omega)]
    · rw [h.others i hne, hs.magicOk i (by omega)]
  versionOk hp := by
    rw [h.p] at hp
    rw [h.cfg]
    rcases eq_or_ne s.p 6 with h6 | h6
    · rw [← h6, h.byte, hst.eq_version h6]
    · rw [h.others 6 h6.symm, hs.versionOk (by omega)]
  typeOk hp := by
    rw [h.p] at hp
    rw [h.cfg]
    rcases eq_or_ne s.p 7 with h7 | h7
    · rw [← h7, h.byte, hst.eq_typeRpcCommand h7]
    · rw [h.others 7 h7.symm, hs.typeOk (by omega)]

theorem State.Inv.storeByte {s : State} {b : Byte} (h : s.Inv) (hst : s.ToStore b) : (s.storeByte b).Inv := by
  have hp : s.p < s.cfg.cap := hst.p_lt_cap h.cfgWf
  refine (State.storeByte_stored hp b).inv h hst ?_ ?_ <;> rw [State.storeByte_eq hp]
  · exact Memory.write_wf h.bufWf s.p b
  · exact Memory.write_bound h.bufBound hp b

/-! ### Receiving a byte, running an instruction, a step -/

theorem State.Inv.receiveByte {s t : State} {b : Byte} (h : s.Inv) (ht : s.receiveByte b = .next t) : t.Inv := by
  rcases State.receiveByte_cases ht with ⟨hst, rfl⟩ | ⟨-, -, rfl⟩ | ⟨-, -, rfl⟩ | ⟨-, -, rfl⟩ |
    ⟨l, -, -, -, ⟨-, rfl⟩ | ⟨-, pl, -, rfl⟩⟩
  · exact h.storeByte hst
  · exact h.endAttempt .rejMagic none
  · exact h.endAttempt .rejVersion none
  · exact h.endAttempt .rejType none
  · exact h.endAttempt .checksumError none
  · exact h.completeFrame pl

theorem State.Inv.exec {s t : State} {i : Instr} (h : s.Inv) (ht : exec i s = .next t) : t.Inv := by
  rcases exec_cases i s with ⟨r, he⟩ | ⟨r, he⟩ | he | ⟨b, he⟩ <;> rw [he] at ht
  · cases ht; exact h.respond r
  · cases ht; exact h.raiseRequestFault r
  · cases ht; exact h.clearAttempt.respond (plainResponse .done [] none)
  · exact h.receiveByte ht

theorem State.Inv.step {s t : State} (h : s.Inv) (ht : step s = .next t) : t.Inv := by
  obtain ⟨-, -, ⟨-, rfl⟩ | ⟨x, rest, -, ⟨i, -, he⟩ | ⟨r, -, rfl⟩⟩⟩ := step_cases ht
  · exact h
  · exact (h.withInterface s.fault rest s.responses).exec he
  · exact h.withInterface (some r) rest s.responses

/-- Settles O27: what a step does to `p`, `sum` and `B` is to store a byte that passed its check, to end the attempt, or
nothing; each keeps the invariants. -/
theorem stepKeepsInvariant : Obligations.StepKeepsInvariant :=
  fun _ hs => ⟨fun _ ht => hs.step ht, fun _ hst => hst.p_lt_cap hs.cfgWf⟩

end Sys2Proof.Machine
end

section
/-! PROOFS. One equation for each way a step or a received byte can go, and two runs that a consumer cannot tell apart
(R31, R35). -/

namespace Sys2Proof.Machine

/-! ### Equations of the step (R32, R47, R60, R83) -/

theorem step_of_fault {s : State} {r : RequestFaultReason} (hcfg : s.cfg.WellFormed) (hf : s.fault = some r) :
    step s = .fault (.requestFault r) := by
  simp only [step, if_pos hcfg, hf]

theorem step_of_requests_nil {s : State} (hcfg : s.cfg.WellFormed) (hf : s.fault = none) (hr : s.requests = []) :
    step s = .next s := by
  simp only [step, if_pos hcfg, hf, State.fetch, hr]

theorem step_of_decode_ok {s : State} {x : Presented} {rest : List Presented} {i : Instr} (hcfg : s.cfg.WellFormed)
    (hf : s.fault = none) (hr : s.requests = x :: rest) (hd : decode s.cfg x = .ok i) :
    step s = exec i { s with requests := rest } := by
  simp only [step, if_pos hcfg, hf, State.fetch, hr, hd]

theorem step_of_decode_error {s : State} {x : Presented} {rest : List Presented} {r : Reject}
    (hcfg : s.cfg.WellFormed) (hf : s.fault = none) (hr : s.requests = x :: rest) (hd : decode s.cfg x = .error r) :
    step s = rejectRequest r { s with requests := rest } := by
  simp only [step, if_pos hcfg, hf, State.fetch, hr, hd]

/-! ### Equations of a byte that is not stored (R172 to R178) -/

theorem State.receiveByte_rejMagic {s : State} {b : Byte} (hp : s.p ≤ 5) (hb : magic[s.p]? ≠ some b) :
    s.receiveByte b = .next (s.endAttempt .rejMagic none) := by
  simp only [State.receiveByte, if_pos hp, if_neg hb]

theorem State.receiveByte_rejVersion {s : State} {b : Byte} (hp : s.p = 6) (hb : b ≠ s.cfg.version) :
    s.receiveByte b = .next (s.endAttempt .rejVersion none) := by
  simp [State.receiveByte, hp, hb]

theorem State.receiveByte_rejType {s : State} {b : Byte} (hp : s.p = 7) (hb : b ≠ s.cfg.typeRpcCommand) :
    s.receiveByte b = .next (s.endAttempt .rejType none) := by
  simp [State.receiveByte, hp, hb]

/-- From position 9 on, a byte is classified by the length byte. -/
theorem State.receiveByte_eq_receiveBody {s : State} {l : Byte} (hp : 9 ≤ s.p) (hl : s.buf.read 8 = some l)
    (b : Byte) : s.receiveByte b = s.receiveBody l b := by
  have h5 : ¬ s.p ≤ 5 := by omega
  have h6 : s.p ≠ 6 := by omega
  have h7 : s.p ≠ 7 := by omega
  have h8 : s.p ≠ 8 := by omega
  simp only [State.receiveByte, if_neg h5, if_neg h6, if_neg h7, if_neg h8, hl]

theorem State.receiveByte_checksumError {s : State} {b l : Byte} (hl : s.buf.read 8 = some l) (hp : 8 + l.toNat < s.p)
    (hb : b ≠ s.sum) : s.receiveByte b = .next (s.endAttempt .checksumError none) := by
  rw [State.receiveByte_eq_receiveBody (by omega) hl, State.receiveBody, if_neg (by omega), if_pos hb]

theorem State.receiveByte_completeFrame {s : State} {b l : Byte} {pl : Bytes} (hl : s.buf.read 8 = some l)
    (hp : 8 + l.toNat < s.p) (hb : b = s.sum) (hpl : s.buf.readRange 9 l.toNat = some pl) :
    s.receiveByte b = .next (s.completeFrame pl) := by
  rw [State.receiveByte_eq_receiveBody (by omega) hl, State.receiveBody, if_neg (by omega), if_neg (not_not_intro hb),
    hpl]

/-! ### Between requests a byte always gets an answer (R26, R35) -/

/-- R22: every range of bytes below `p` is written. -/
theorem State.Inv.readRange_below {s : State} (h : s.Inv) {i n : Nat} (hin : i + n ≤ s.p) :
    ∃ bs, s.buf.readRange i n = some bs := by
  obtain ⟨bs, hbs, -⟩ := Option.map_eq_some_iff.1 h.sumOk
  exact ⟨_, Memory.readRange_sub hbs hin⟩

/-- R26(b): past the length byte, it is written and bounds `p`. -/
theorem State.Inv.length_read {s : State} (h : s.Inv) (hp : 9 ≤ s.p) :
    ∃ l, s.buf.read 8 = some l ∧ s.p ≤ 9 + l.toNat := by
  obtain ⟨bs, hbs⟩ := h.readRange_below (i := 8) (n := 1) (by omega)
  obtain ⟨hlen, hread⟩ := Memory.readRange_eq_some.1 hbs
  have hl := hread 0 (by omega)
  exact ⟨_, hl, h.lenBound hp _ hl⟩

/-- R170, R183: under the invariants every byte value at every position has an outcome, for the parser reads written
bytes only. -/
theorem State.Inv.receiveByte_next {s : State} (h : s.Inv) (b : Byte) : ∃ t, s.receiveByte b = .next t := by
  by_cases hst : s.ToStore b
  · exact ⟨_, State.receiveByte_toStore hst⟩
  · obtain ⟨hmagic, hversion, htype, hlength, hbody⟩ : _ ∧ _ ∧ _ ∧ _ ∧ _ := by
      simpa only [State.ToStore, not_or] using hst
    obtain hp | hp | hp | hp : s.p ≤ 5 ∨ s.p = 6 ∨ s.p = 7 ∨ 9 ≤ s.p := by omega
    · exact ⟨_, State.receiveByte_rejMagic hp fun hb => hmagic ⟨hp, hb⟩⟩
    · exact ⟨_, State.receiveByte_rejVersion hp fun hb => hversion ⟨hp, hb⟩⟩
    · exact ⟨_, State.receiveByte_rejType hp fun hb => htype ⟨hp, hb⟩⟩
    · obtain ⟨l, hl, -⟩ := h.length_read hp
      have hlt : 8 + l.toNat < s.p := Nat.not_le.1 fun hle => hbody ⟨hp, l, hl, hle⟩
      by_cases hb : b = s.sum
      · obtain ⟨pl, hpl⟩ := h.readRange_below (i := 9) (n := l.toNat) (by omega)
        exact ⟨_, State.receiveByte_completeFrame hl hlt hb hpl⟩
      · exact ⟨_, State.receiveByte_checksumError hl hlt hb⟩

/-! ### What two states that agree below `p` share (R31) -/

theorem State.AgreeBelow.readRange {s t : State} (h : s.AgreeBelow t) {i n : Nat} (hin : i + n ≤ s.p) :
    t.buf.readRange i n = s.buf.readRange i n :=
  Memory.readRange_congr fun a _ ha => h.bytes a (by omega)

/-- R23: `sum` is a function of `B[0..p-1]`. -/
theorem State.AgreeBelow.sum_eq {s t : State} (h : s.AgreeBelow t) (hs : s.Inv) (ht : t.Inv) : t.sum = s.sum := by
  have htsum := ht.sumOk
  rw [h.p, h.readRange (by omega), hs.sumOk] at htsum
  exact (Option.some.inj htsum).symm

theorem State.AgreeBelow.toStore {s t : State} (h : s.AgreeBelow t) {b : Byte} (hst : s.ToStore b) : t.ToStore b := by
  rw [State.ToStore, h.p, h.cfg]
  rcases hst with hmagic | hversion | htype | hlength | ⟨hp, l, hl, hpl⟩
  · exact .inl hmagic
  · exact .inr (.inl hversion)
  · exact .inr (.inr (.inl htype))
  · exact .inr (.inr (.inr (.inl hlength)))
  · exact .inr (.inr (.inr (.inr ⟨hp, l, (h.bytes 8 (by omega)).trans hl, hpl⟩)))

/-- `s` and `t` went on to `s'` and `t'` with the same new responses, and these agree below `p` again. -/
structure State.AnswersAlike (s t s' t' : State) : Prop where
  agree : s'.AgreeBelow t'
  responses : ∃ rs, s'.responses = s.responses ++ rs ∧ t'.responses = t.responses ++ rs

theorem State.AgreeBelow.respond {s t : State} (h : s.AgreeBelow t) (r : Response) :
    s.AnswersAlike t (s.respond r) (t.respond r) :=
  ⟨⟨h.cfg, h.p, h.bytes, h.fault, h.requests⟩, [r], rfl, rfl⟩

theorem State.AgreeBelow.raiseRequestFault {s t : State} (h : s.AgreeBelow t) (r : RequestFaultReason) :
    s.AnswersAlike t (s.raiseRequestFault r) (t.raiseRequestFault r) :=
  ⟨⟨h.cfg, h.p, h.bytes, rfl, h.requests⟩, [], (List.append_nil _).symm, (List.append_nil _).symm⟩

theorem State.AgreeBelow.withRequests {s t : State} (h : s.AgreeBelow t) (rest : List Presented) :
    State.AgreeBelow { s with requests := rest } { t with requests := rest } :=
  ⟨h.cfg, h.p, h.bytes, h.fault, rfl⟩

/-- At `p = 0` no byte of the buffer is below `p`. -/
theorem State.AgreeBelow.clearAttempt_respond {s t : State} (h : s.AgreeBelow t) (r : Response) :
    s.AnswersAlike t (s.clearAttempt.respond r) (t.clearAttempt.respond r) :=
  ⟨⟨h.cfg, rfl, fun a ha => absurd ha (Nat.not_lt_zero a), h.fault, h.requests⟩, [r], rfl, rfl⟩

theorem State.AgreeBelow.endAttempt {s t : State} (h : s.AgreeBelow t) (st : Status) (c : Option Cmd) :
    s.AnswersAlike t (s.endAttempt st c) (t.endAttempt st c) :=
  h.clearAttempt_respond (rxResponse st c)

theorem State.AgreeBelow.completeFrame {s t : State} (h : s.AgreeBelow t) (pl : Bytes) :
    s.AnswersAlike t (s.completeFrame pl) (t.completeFrame pl) := by
  rw [State.completeFrame_eq_respond, State.completeFrame_eq_respond, h.cfg]
  exact h.clearAttempt_respond (completionResponse s.cfg pl)

/-- The byte stored at `p` is the same in both. -/
theorem State.AgreeBelow.stored {s t s' t' : State} {b : Byte} (h : s.AgreeBelow t) (hs : s.Stored b s')
    (ht : t.Stored b t') : s.AnswersAlike t s' t' where
  agree :=
    { cfg := by rw [ht.cfg, hs.cfg, h.cfg]
      p := by rw [ht.p, hs.p, h.p]
      bytes := fun a ha => by
        rw [hs.p] at ha
        rcases eq_or_ne a s.p with rfl | hne
        · rw [hs.byte, ← h.p, ht.byte]
        · rw [hs.others a hne, ht.others a (h.p ▸ hne), h.bytes a (by omega)]
      fault := by rw [ht.fault, hs.fault, h.fault]
      requests := by rw [ht.requests, hs.requests, h.requests] }
  responses := ⟨_, hs.responses, ht.responses⟩

/-! ### Two steps side by side -/

/-- R171: a received byte is classified by `p`, the configuration, the length byte and `sum` alone, and a completed payload
stands below `p`. -/
theorem State.AgreeBelow.receiveByte {s t s' : State} {b : Byte} (h : s.AgreeBelow t) (hs : s.Inv) (ht : t.Inv)
    (he : s.receiveByte b = .next s') : ∃ t', t.receiveByte b = .next t' ∧ s.AnswersAlike t s' t' := by
  rcases State.receiveByte_cases he with ⟨hst, rfl⟩ | ⟨hp, hb, rfl⟩ | ⟨hp, hb, rfl⟩ | ⟨hp, hb, rfl⟩ |
    ⟨l, hl, hlp, hp, hend⟩
  · exact ⟨_, State.receiveByte_toStore (h.toStore hst), h.stored (State.storeByte_stored (hst.p_lt_cap hs.cfgWf) b)
      (State.storeByte_stored ((h.toStore hst).p_lt_cap ht.cfgWf) b)⟩
  · rw [← h.p] at hp hb
    exact ⟨_, State.receiveByte_rejMagic hp hb, h.endAttempt .rejMagic none⟩
  · rw [← h.p] at hp
    rw [← h.cfg] at hb
    exact ⟨_, State.receiveByte_rejVersion hp hb, h.endAttempt .rejVersion none⟩
  · rw [← h.p] at hp
    rw [← h.cfg] at hb
    exact ⟨_, State.receiveByte_rejType hp hb, h.endAttempt .rejType none⟩
  · have htl : t.buf.read 8 = some l := (h.bytes 8 (by omega)).trans hl
    have htp : 8 + l.toNat < t.p := h.p ▸ hlp
    rcases hend with ⟨hb, rfl⟩ | ⟨hb, pl, hpl, rfl⟩ <;> rw [← h.sum_eq hs ht] at hb
    · exact ⟨_, State.receiveByte_checksumError htl htp hb, h.endAttempt .checksumError none⟩
    · have htpl : t.buf.readRange 9 l.toNat = some pl := (h.readRange (by omega)).trans hpl
      exact ⟨_, State.receiveByte_completeFrame htl htp hb htpl, h.completeFrame pl⟩

/-- Log entry 11: a wire-code row is the reception of its byte. -/
theorem exec_of_encode_wire {i : Instr} {s : State} {c : WireClass} {b : Byte} (h : encode s.cfg i = .wire c b) :
    exec i s = s.receiveByte b := by
  cases i <;> cases h <;> rfl

/-- What an instruction does, said of every state with one configuration: which response it answers, which fault it raises
or which byte it receives depends on the configuration alone (R50). -/
theorem exec_cases_of_cfg (i : Instr) (cfg : Cfg) :
    (∃ r, ∀ s : State, s.cfg = cfg → exec i s = .next (s.respond r)) ∨
      (∃ r, ∀ s : State, s.cfg = cfg → exec i s = .next (s.raiseRequestFault r)) ∨
      (∀ s : State, exec i s = .next (s.clearAttempt.respond (plainResponse .done [] none))) ∨
      ∃ b, ∀ s : State, s.cfg = cfg → exec i s = s.receiveByte b := by
  cases hw : encode cfg i with
  | wire c b => exact .inr (.inr (.inr ⟨b, fun s hs => exec_of_encode_wire (hs ▸ hw)⟩))
  | request w x =>
    cases i with
    | reset => exact .inr (.inr (.inl fun s => rfl))
    | rxByte b => exact .inr (.inr (.inr ⟨b, fun s _ => rfl⟩))
    | encState st => exact .inl ⟨_, fun s hs => by rw [exec, execEncState, hs]⟩
    | encError esel =>
      simp only [exec, execEncError]
      cases errorOfSel esel with
      | none => exact .inr (.inl ⟨_, fun s _ => rfl⟩)
      | some e => exact .inl ⟨_, fun s hs => by rw [hs]⟩
    | encRpcResponse ic c f =>
      simp only [exec, execEncRpcResponse]
      split
      · exact .inr (.inl ⟨_, fun s _ => rfl⟩)
      · exact .inl ⟨_, fun s hs => by rw [hs]⟩
    | checksum d => exact .inl ⟨_, fun s _ => rfl⟩
    | decodeRpcCommand pl =>
      simp only [exec, execDecodeRpcCommand]
      split
      · exact .inr (.inl ⟨_, fun s _ => rfl⟩)
      · cases hd : decodeRpc cfg pl with
        | ok c => exact .inl ⟨_, fun s hs => by rw [hs, hd]⟩
        | error e => exact .inl ⟨_, fun s hs => by rw [hs, hd]⟩
    | reservedOp bits => exact .inr (.inl ⟨_, fun s _ => rfl⟩)
    | _ => cases hw

theorem State.AgreeBelow.exec {s t : State} (h : s.AgreeBelow t) (hs : s.Inv) (ht : t.Inv) (i : Instr) :
    ∃ s' t', exec i s = .next s' ∧ exec i t = .next t' ∧ s.AnswersAlike t s' t' := by
  rcases exec_cases_of_cfg i s.cfg with ⟨r, he⟩ | ⟨r, he⟩ | he | ⟨b, he⟩
  · exact ⟨_, _, he s rfl, he t h.cfg, h.respond r⟩
  · exact ⟨_, _, he s rfl, he t h.cfg, h.raiseRequestFault r⟩
  · exact ⟨_, _, he s, he t, h.clearAttempt_respond (plainResponse .done [] none)⟩
  · obtain ⟨s', hs'⟩ := hs.receiveByte_next b
    obtain ⟨t', ht', hst⟩ := h.receiveByte hs ht hs'
    exact ⟨s', t', (he s rfl).trans hs', (he t h.cfg).trans ht', hst⟩

/-- Two steps from states that agree below `p` go on alike, or stop for the same reason. -/
theorem State.AgreeBelow.step {s t : State} (h : s.AgreeBelow t) (hs : s.Inv) (ht : t.Inv) :
    (∃ s' t', step s = .next s' ∧ step t = .next t' ∧ s.AnswersAlike t s' t') ∨
      (∃ r, step s = .fault r ∧ step t = .fault r) ∨ ∃ r, step s = .refused r ∧ step t = .refused r := by
  cases hf : s.fault with
  | some r => exact .inr (.inl ⟨_, step_of_fault hs.cfgWf hf, step_of_fault ht.cfgWf (h.fault.trans hf)⟩)
  | none =>
    have htf : t.fault = none := h.fault.trans hf
    cases hr : s.requests with
    | nil =>
      exact .inl ⟨s, t, step_of_requests_nil hs.cfgWf hf hr, step_of_requests_nil ht.cfgWf htf (h.requests.trans hr),
        h, [], (List.append_nil _).symm, (List.append_nil _).symm⟩
    | cons x rest =>
      have htr : t.requests = x :: rest := h.requests.trans hr
      have hrest := h.withRequests rest
      cases hd : decode s.cfg x with
      | ok i =>
        rw [step_of_decode_ok hs.cfgWf hf hr hd, step_of_decode_ok ht.cfgWf htf htr (h.cfg ▸ hd)]
        obtain ⟨s', t', hs', ht', hans⟩ := hrest.exec (hs.withInterface s.fault rest s.responses)
          (ht.withInterface t.fault rest t.responses) i
        exact .inl ⟨s', t', hs', ht', hans.agree, hans.responses⟩
      | error r =>
        rw [step_of_decode_error hs.cfgWf hf hr hd, step_of_decode_error ht.cfgWf htf htr (h.cfg ▸ hd)]
        cases r with
        | requestFault r =>
          have hans := hrest.raiseRequestFault r
          exact .inl ⟨_, _, rfl, rfl, hans.agree, hans.responses⟩
        | sideOperand => exact .inr (.inr ⟨_, rfl, rfl⟩)

/-- What both runs answered before, they share. -/
theorem SameOutcome.of_answersAlike {s t s' t' : State} {o o' : Host.Outcome State Fault Refusal}
    (h : SameOutcome s' t' o o') (hans : s.AnswersAlike t s' t') : SameOutcome s t o o' := by
  obtain ⟨rs, hs', ht'⟩ := hans.responses
  rcases h with ⟨u, v, rs', ho, ho', hu, hv⟩ | hfault | hrefused
  · exact .inl ⟨u, v, rs ++ rs', ho, ho', by rw [hu, hs', List.append_assoc], by rw [hv, ht', List.append_assoc]⟩
  · exact .inr (.inl hfault)
  · exact .inr (.inr hrefused)

/-- Settles O32, by induction on the number of steps: agreement below `p` is kept by two steps side by side, and the
invariants, which make `sum` equal, by each of them. -/
theorem hiddenBufferUnobservable : Obligations.HiddenBufferUnobservable := by
  intro s t n hs ht h
  induction n generalizing s t with
  | zero => exact .inl ⟨s, t, [], rfl, rfl, (List.append_nil _).symm, (List.append_nil _).symm⟩
  | succ n ih =>
    rcases h.step hs ht with ⟨s', t', hs', ht', hans⟩ | ⟨r, hs', ht'⟩ | ⟨r, hs', ht'⟩
    · rw [core_run_next hs', core_run_next ht']
      exact (ih s' t' (hs.step hs') (ht.step ht') hans.agree).of_answersAlike hans
    · exact .inr (.inl ⟨r, core_run_fault hs' n, core_run_fault ht' n⟩)
    · exact .inr (.inr ⟨r, core_run_refused hs' n, core_run_refused ht' n⟩)

end Sys2Proof.Machine
end

section
/-! PROOFS. The codec requests: what each answers, case by case (R101, R104, R106, R107, R149), and that none of them reads
or disturbs the parser's `p`, `sum` and `B` (R50). -/

namespace Sys2Proof.Machine

/-! ### One equation per outcome of a codec request -/

theorem exec_encState (st : ProvState) (s : State) : exec (.encState st) s =
    .next (s.respond
      (plainResponse .done (withChecksum (frameBytes s.cfg .currentState [s.cfg.stateCode st])) none)) := rfl

theorem exec_encError_reserved {esel : BitVec 3} (h : errorOfSel esel = none) (s : State) :
    exec (.encError esel) s = .next (s.raiseRequestFault .reservedSelector) := by
  simp only [exec, execEncError, h]

theorem exec_encError_of_sel {esel : BitVec 3} {e : ErrorCode} (h : errorOfSel esel = some e) (s : State) :
    exec (.encError esel) s = .next (s.respond
      (plainResponse .done (withChecksum (frameBytes s.cfg .errorState [s.cfg.errorCode e])) none)) := by
  simp only [exec, execEncError, h]

theorem exec_encRpcResponse_tooLong {f : List Bytes} (h : 255 < 2 + totalLen f) (ic : Bool) (c : Command) (s : State) :
    exec (.encRpcResponse ic c f) s = .next (s.raiseRequestFault .payloadTooLong) :=
  if_pos h

theorem exec_encRpcResponse_sent {f : List Bytes} (h : ¬ 255 < 2 + totalLen f) (ic : Bool) (c : Command) (s : State) :
    exec (.encRpcResponse ic c f) s = .next (s.respond (plainResponse .done (responseFrame s.cfg ic c f) none)) :=
  if_neg h

theorem exec_checksum (d : Bytes) (s : State) :
    exec (.checksum d) s = .next (s.respond (plainResponse .done [sum8 d] none)) := rfl

theorem exec_decodeRpcCommand_tooLong {pl : Bytes} (h : 255 < pl.length) (s : State) :
    exec (.decodeRpcCommand pl) s = .next (s.raiseRequestFault .payloadTooLong) :=
  if_pos h

theorem exec_decodeRpcCommand_ok {pl : Bytes} {s : State} {c : Cmd} (h : ¬ 255 < pl.length)
    (hd : decodeRpc s.cfg pl = .ok c) :
    exec (.decodeRpcCommand pl) s = .next (s.respond (plainResponse .command [] (some c))) := by
  simp only [exec, execDecodeRpcCommand, if_neg h, hd]

theorem exec_decodeRpcCommand_error {pl : Bytes} {s : State} {e : ParseError} (h : ¬ 255 < pl.length)
    (hd : decodeRpc s.cfg pl = .error e) :
    exec (.decodeRpcCommand pl) s = .next (s.respond (plainResponse .decodeError [] none)) := by
  simp only [exec, execDecodeRpcCommand, if_neg h, hd]

/-! ### The parser's state is neither read nor disturbed -/

/-- R240: a request fault sets the mark and answers nothing, whatever the parser holds. -/
theorem State.raiseRequestFault_of_parser (s : State) (r : RequestFaultReason) (p : Nat) (sum : Byte) (buf : Memory) :
    State.raiseRequestFault r { s with p := p, sum := sum, buf := buf } =
      { s with p := p, sum := sum, buf := buf, fault := some r, responses := s.responses ++ [] } := by
  rw [List.append_nil, State.raiseRequestFault]

/-- Settles O13: every outcome is one response or one request fault that the operand and the configuration alone choose, so
the mark and the responses can be named before `p`, `sum` and `B`. -/
theorem codecRequestsIgnoreParser : Obligations.CodecRequestsIgnoreParser := by
  rintro i s (⟨st, rfl⟩ | ⟨esel, rfl⟩ | ⟨ic, c, f, rfl⟩ | ⟨d, rfl⟩ | ⟨pl, rfl⟩)
  · exact ⟨s.fault, [plainResponse .done (withChecksum (frameBytes s.cfg .currentState [s.cfg.stateCode st])) none],
      fun _ _ _ => exec_encState st _⟩
  · cases hsel : errorOfSel esel with
    | none => exact ⟨_, [], fun _ _ _ => by rw [exec_encError_reserved hsel, State.raiseRequestFault_of_parser]⟩
    | some e =>
      exact ⟨s.fault, [plainResponse .done (withChecksum (frameBytes s.cfg .errorState [s.cfg.errorCode e])) none],
        fun _ _ _ => exec_encError_of_sel hsel _⟩
  · by_cases hlen : 255 < 2 + totalLen f
    · exact ⟨_, [], fun _ _ _ => by rw [exec_encRpcResponse_tooLong hlen, State.raiseRequestFault_of_parser]⟩
    · exact ⟨s.fault, [plainResponse .done (responseFrame s.cfg ic c f) none],
        fun _ _ _ => exec_encRpcResponse_sent hlen ic c _⟩
  · exact ⟨s.fault, [_], fun _ _ _ => exec_checksum d _⟩
  · by_cases hlen : 255 < pl.length
    · exact ⟨_, [], fun _ _ _ => by rw [exec_decodeRpcCommand_tooLong hlen, State.raiseRequestFault_of_parser]⟩
    · cases hd : decodeRpc s.cfg pl with
      | ok cmd => exact ⟨s.fault, [_], fun _ _ _ => exec_decodeRpcCommand_ok hlen hd⟩
      | error e => exact ⟨s.fault, [_], fun _ _ _ => exec_decodeRpcCommand_error hlen hd⟩

end Sys2Proof.Machine
end

section
/-! PROOFS. The decoder and the encoder (R60 to R68, R76, R81, R87): one equation per outcome of a request word, the two
round trips, the reserved bits as masks, and the opcode table. -/

namespace Sys2Proof

/-- R62: a word whose top three bits are not all set has a defined OP. -/
theorem opOf_ne_reservedOp {w : ReqWord} (h : w &&& 0xE000#16 ≠ 0xE000#16) : opOf w ≠ .reservedOp :=
  fun hop => h ((and_op_eq_iff w .reservedOp).2 hop)

/-! ### One equation per outcome of a request word (R83, R237) -/

theorem decode_of_reservedOp {w : ReqWord} (hop : opOf w = .reservedOp) (cfg : Cfg) (x : SideOperand) :
    decode cfg (.request w x) = .ok (.reservedOp (w.extractLsb' 0 13)) :=
  if_pos hop

theorem decode_of_reservedBits {w : ReqWord} (hop : opOf w ≠ .reservedOp) (hb : reservedBitsSet w = true) (cfg : Cfg)
    (x : SideOperand) : decode cfg (.request w x) = .error (.requestFault .reservedBits) := by
  simp only [decode, decodeRequest, if_neg hop, if_pos hb]

theorem decode_of_clear {w : ReqWord} (hop : opOf w ≠ .reservedOp) (hb : reservedBitsSet w = false) (cfg : Cfg)
    (x : SideOperand) : decode cfg (.request w x) = decodeOperands (opOf w) w x := by
  simp [decode, decodeRequest, hop, hb]

/-- A request word that decodes has the reserved OP, or clear reserved bits and operands its OP takes. -/
theorem decode_request_eq_ok {cfg : Cfg} {w : ReqWord} {x : SideOperand} {i : Instr}
    (h : decode cfg (.request w x) = .ok i) :
    (opOf w = .reservedOp ∧ i = .reservedOp (w.extractLsb' 0 13)) ∨
      (opOf w ≠ .reservedOp ∧ reservedBitsSet w = false ∧ decodeOperands (opOf w) w x = .ok i) := by
  by_cases hop : opOf w = .reservedOp
  · rw [decode_of_reservedOp hop] at h
    cases h
    exact .inl ⟨hop, rfl⟩
  · cases hb : reservedBitsSet w with
    | true => rw [decode_of_reservedBits hop hb] at h; cases h
    | false => exact .inr ⟨hop, rfl, decode_of_clear hop hb cfg x ▸ h⟩

/-- Reading the operands raises no request fault: the reserved bits are tested before (R237). -/
theorem decodeOperands_ne_requestFault (op : OpName) (w : ReqWord) (x : SideOperand) (r : RequestFaultReason) :
    decodeOperands op w x ≠ .error (.requestFault r) := by
  intro h
  simp only [decodeOperands] at h
  split at h <;> cases h

/-- R63, R64, R237: the reserved bits are what RESERVED_BITS is raised for. -/
theorem decode_eq_reservedBits_iff {w : ReqWord} (hop : opOf w ≠ .reservedOp) (cfg : Cfg) (x : SideOperand) :
    decode cfg (.request w x) = .error (.requestFault .reservedBits) ↔ reservedBitsSet w = true := by
  cases hb : reservedBitsSet w with
  | true => exact iff_of_true (decode_of_reservedBits hop hb cfg x) rfl
  | false =>
    rw [decode_of_clear hop hb]
    exact iff_of_false (decodeOperands_ne_requestFault _ w x _) Bool.false_ne_true

/-! ### Words built from their fields (R61 to R64) -/

@[simp] theorem reservedBitsSet_mkWord (op : OpName) (ic : Bool) (arg : Byte) :
    reservedBitsSet (mkWord op.bits ic arg) = (ic && op != .encRpcResponse || argReserved op arg) := by
  simp [reservedBitsSet]

/-- A word whose reserved bits are clear is its fields put together again, with IC clear but for ENC_RPC_RESPONSE. -/
theorem mkWord_of_clear {w : ReqWord} (hb : reservedBitsSet w = false) :
    mkWord (opOf w).bits (icField w) (argField w) = w ∧ (opOf w ≠ .encRpcResponse → icField w = false) ∧
      argReserved (opOf w) (argField w) = false := by
  simp only [reservedBitsSet, Bool.or_eq_false_iff, bne_eq_false_iff_eq] at hb
  obtain ⟨⟨hrsv, hic⟩, harg⟩ := hb
  refine ⟨opOf_bits w ▸ mkWord_fields hrsv, fun hop => ?_, harg⟩
  simpa [bne_iff_ne.2 hop] using hic

/-! ### Selectors and operands (R65 to R67) -/

@[simp] theorem stateOfSel_sel (st : ProvState) : stateOfSel st.sel = st := by
  cases st <;> rfl

@[simp] theorem sel_stateOfSel (sel : BitVec 2) : (stateOfSel sel).sel = sel := by
  revert sel; decide

@[simp] theorem commandOfSel_sel (c : Command) : commandOfSel c.sel = c := by
  cases c <;> rfl

@[simp] theorem sel_commandOfSel (sel : BitVec 2) : (commandOfSel sel).sel = sel := by
  revert sel; decide

/-- A two-bit selector in an ARG field whose other bits are clear. -/
theorem selector2_append {arg : Byte} (h : arg.extractLsb' 2 6 = 0#6) : 0#6 ++ arg.extractLsb' 0 2 = arg := by
  rw [← h]
  exact (BitVec.extractLsb'_append_extractLsb'_eq_extractLsb' rfl).trans BitVec.extractLsb'_eq_self

@[simp] theorem extractLsb'_selector2 (sel : BitVec 2) :
    (0#6 ++ sel).extractLsb' 0 2 = sel ∧ (0#6 ++ sel).extractLsb' 2 6 = 0#6 := by
  revert sel; decide

theorem selector3_append {arg : Byte} (h : arg.extractLsb' 3 5 = 0#5) : 0#5 ++ arg.extractLsb' 0 3 = arg := by
  rw [← h]
  exact (BitVec.extractLsb'_append_extractLsb'_eq_extractLsb' rfl).trans BitVec.extractLsb'_eq_self

@[simp] theorem extractLsb'_selector3 (sel : BitVec 3) :
    (0#5 ++ sel).extractLsb' 0 3 = sel ∧ (0#5 ++ sel).extractLsb' 3 5 = 0#5 := by
  revert sel; decide

/-! ### The code tables (R15) -/

theorem Cfg.typeCode_injective {cfg : Cfg} (h : cfg.WellFormed) : Function.Injective cfg.typeCode := fun t t' ht =>
  Option.some.inj <| by rw [← Cfg.typeOf?_typeCode h t, ht, Cfg.typeOf?_typeCode h]

theorem Cfg.cmdCode_injective {cfg : Cfg} (h : cfg.WellFormed) : Function.Injective cfg.cmdCode := fun c c' hc =>
  Option.some.inj <| by rw [← Cfg.commandOf?_cmdCode h c, hc, Cfg.commandOf?_cmdCode h]

/-! ### The round trips -/

/-- Reading the operands back from a word built of its fields. -/
theorem decode_mkWord {op : OpName} {ic : Bool} {arg : Byte} (hop : op ≠ .reservedOp)
    (hb : (ic && op != .encRpcResponse || argReserved op arg) = false) (cfg : Cfg) (x : SideOperand) :
    decode cfg (.request (mkWord op.bits ic arg) x) = decodeOperands op (mkWord op.bits ic arg) x := by
  rw [decode_of_clear (by simpa using hop) (by simpa using hb), opOf_mkWord]

/-- R211: the reserved OP carries the word's other 13 bits. -/
theorem decode_reservedOp_append (bits : BitVec 13) (cfg : Cfg) (x : SideOperand) :
    decode cfg (.request (OpName.reservedOp.bits ++ bits) x) = .ok (.reservedOp bits) := by
  have hop : opField (OpName.reservedOp.bits ++ bits) = OpName.reservedOp.bits := BitVec.extractLsb'_append_eq_left
  have hbits : BitVec.extractLsb' 0 13 (OpName.reservedOp.bits ++ bits) = bits := BitVec.extractLsb'_append_eq_right
  rw [decode_of_reservedOp (by rw [opOf, hop]; rfl), hbits]

/-- R76, R81, R142: a code of a well-formed configuration is read as its row. -/
theorem decodeWire_typeCode {cfg : Cfg} (h : cfg.WellFormed) (t : FrameType) :
    decodeWire cfg .frameType (cfg.typeCode t) = typeInstr t := by
  simp [decodeWire, Cfg.typeOf?_typeCode h]

theorem decodeWire_cmdCode {cfg : Cfg} (h : cfg.WellFormed) (c : Command) :
    decodeWire cfg .command (cfg.cmdCode c) = commandInstr c := by
  simp [decodeWire, Cfg.commandOf?_cmdCode h]

theorem decodeWire_stateCode {cfg : Cfg} (h : cfg.WellFormed) (st : ProvState) :
    decodeWire cfg .state (cfg.stateCode st) = stateInstr st := by
  simp [decodeWire, Cfg.stateOf?_stateCode h]

theorem decodeWire_errorCode {cfg : Cfg} (h : cfg.WellFormed) (e : ErrorCode) :
    decodeWire cfg .error (cfg.errorCode e) = errorInstr e := by
  simp [decodeWire, Cfg.errorOf?_errorCode h]

theorem decodeWire_unknown {cfg : Cfg} {id : Byte} (h : id ∉ cfg.cmdTable) :
    decodeWire cfg .command id = .cmdUnknown id := by
  simp [decodeWire, Cfg.commandOf?_eq_none h]

theorem decode_encode_rxByte (cfg : Cfg) (b : Byte) : decode cfg (encode cfg (.rxByte b)) = .ok (.rxByte b) := by
  simp only [encode]
  rw [decode_mkWord (by decide) rfl, decodeOperands, argField_mkWord]

/-- Settles O41: a request's word has its reserved bits clear, so each operand is read from the field it was put in; a wire
code is looked up in a table without repeats. -/
theorem decodeEncodeRoundTrip : Obligations.DecodeEncodeRoundTrip := by
  intro cfg i hcfg hi
  cases i with
  | reset => exact decode_mkWord (by decide) rfl cfg .absent
  | rxByte b => exact decode_encode_rxByte cfg b
  | encState st =>
    refine (decode_mkWord (by decide) (by simp [argReserved]) cfg .absent).trans ?_
    simp [decodeOperands]
  | encError esel =>
    refine (decode_mkWord (by decide) (by simp [argReserved]) cfg .absent).trans ?_
    simp [decodeOperands]
  | encRpcResponse ic c f =>
    refine (decode_mkWord (by decide) (by simp [argReserved]) cfg (.fields f)).trans ?_
    simp [decodeOperands]
  | checksum d => exact decode_mkWord (by decide) rfl cfg (.bytes d)
  | decodeRpcCommand pl => exact decode_mkWord (by decide) rfl cfg (.bytes pl)
  | reservedOp bits => exact decode_reservedOp_append bits cfg .absent
  | frameCurrentState => exact congrArg Except.ok (decodeWire_typeCode hcfg .currentState)
  | frameErrorState => exact congrArg Except.ok (decodeWire_typeCode hcfg .errorState)
  | frameRpcCommand => exact congrArg Except.ok (decodeWire_typeCode hcfg .rpcCommand)
  | frameRpcResponse => exact congrArg Except.ok (decodeWire_typeCode hcfg .rpcResponse)
  | cmdWifiSettings => exact congrArg Except.ok (decodeWire_cmdCode hcfg .wifiSettings)
  | cmdGetCurrentState => exact congrArg Except.ok (decodeWire_cmdCode hcfg .getCurrentState)
  | cmdGetDeviceInfo => exact congrArg Except.ok (decodeWire_cmdCode hcfg .getDeviceInfo)
  | cmdGetWifiNetworks => exact congrArg Except.ok (decodeWire_cmdCode hcfg .getWifiNetworks)
  | cmdUnknown id => exact congrArg Except.ok (decodeWire_unknown (of_decide_eq_true hi))
  | stateStopped => exact congrArg Except.ok (decodeWire_stateCode hcfg .stopped)
  | stateAuthorized => exact congrArg Except.ok (decodeWire_stateCode hcfg .authorized)
  | stateProvisioning => exact congrArg Except.ok (decodeWire_stateCode hcfg .provisioning)
  | stateProvisioned => exact congrArg Except.ok (decodeWire_stateCode hcfg .provisioned)
  | errorNone => exact congrArg Except.ok (decodeWire_errorCode hcfg .none)
  | errorInvalidRpc => exact congrArg Except.ok (decodeWire_errorCode hcfg .invalidRpc)
  | errorUnknownRpc => exact congrArg Except.ok (decodeWire_errorCode hcfg .unknownRpc)
  | errorUnableToConnect => exact congrArg Except.ok (decodeWire_errorCode hcfg .unableToConnect)
  | errorNotAuthorized => exact congrArg Except.ok (decodeWire_errorCode hcfg .notAuthorized)

/-- The operands read from a word whose reserved bits are clear encode to that word again. -/
theorem encode_of_decodeOperands {op : OpName} {w : ReqWord} {x : SideOperand} {i : Instr} (hop : opOf w = op)
    (hb : reservedBitsSet w = false) (h : decodeOperands op w x = .ok i) (cfg : Cfg) : encode cfg i = .request w x := by
  obtain ⟨hw, hic, harg⟩ := mkWord_of_clear hb
  rw [hop] at hw hic harg
  simp only [decodeOperands] at h
  split at h <;> cases h <;> rw [encode]
  case h_1 => rw [← hw, hic (by decide), bne_eq_false_iff_eq.1 harg]
  case h_2 => rw [← hic (by decide), hw]
  case h_3 => rw [sel_stateOfSel, selector2_append (bne_eq_false_iff_eq.1 harg), ← hic (by decide), hw]
  case h_4 => rw [selector3_append (bne_eq_false_iff_eq.1 harg), ← hic (by decide), hw]
  case h_5 => rw [sel_commandOfSel, selector2_append (bne_eq_false_iff_eq.1 harg), hw]
  case h_6 => rw [← hw, hic (by decide), bne_eq_false_iff_eq.1 harg]
  case h_7 => rw [← hw, hic (by decide), bne_eq_false_iff_eq.1 harg]

/-- Settles O42: past the reserved OP a request decodes with clear reserved bits only, and is then its fields put together
again. -/
theorem encodeDecodeRoundTrip : Obligations.EncodeDecodeRoundTrip := by
  intro cfg w x i hw h
  rcases decode_request_eq_ok h with ⟨hop, -⟩ | ⟨-, hb, hd⟩
  · exact absurd hop (opOf_ne_reservedOp hw)
  · exact encode_of_decodeOperands rfl hb hd cfg

/-! ### The reserved bits as masks (R63, R64, R87) -/

/-- The low byte of a mask tests the ARG field. -/
theorem and_low_ne_iff (w m : ReqWord) : w &&& (m &&& 0x00FF#16) ≠ 0 ↔ argField w &&& argField m ≠ 0#8 := by
  have hm : m &&& 0x00FF#16 = 0#8 ++ argField m := by
    rw [← BitVec.and_allOnes (x := argField m), ← and_arg]
    rfl
  rw [hm, and_arg]
  generalize argField w &&& argField m = v
  revert v; decide +kernel

/-- R64: the ARG bits an OP reserves are those of its row's mask. -/
theorem argReserved_iff (op : OpName) (arg : Byte) : argReserved op arg = true ↔ arg &&& argField op.mask ≠ 0#8 := by
  revert arg
  cases op <;> decide +kernel

/-- R63, R64: the reserved bits, one mask for each of the three places. -/
theorem reservedBitsSet_iff (w : ReqWord) :
    reservedBitsSet w = true ↔ w &&& 0x1E00#16 ≠ 0 ∨ (w &&& 0x0100#16 ≠ 0 ∧ opOf w ≠ .encRpcResponse) ∨
      w &&& ((opOf w).mask &&& 0x00FF#16) ≠ 0 := by
  rw [and_rsv_ne_iff, and_ic_ne_iff, and_low_ne_iff, ← argReserved_iff]
  simp [reservedBitsSet, or_assoc]

/-- Settles O34: the decoder raises RESERVED_BITS exactly where the word's reserved bits are set, which the three masks
test OP by OP; the step then takes the request and sets the mark. -/
theorem reservedBitsRejected : Obligations.ReservedBitsRejected := by
  refine ⟨fun cfg w x hw => ?_, fun s w x rest hcfg hf hr hw hb => ?_⟩
  · rw [decode_eq_reservedBits_iff (opOf_ne_reservedOp hw), reservedBitsSet_iff, and_op, ← opOf_bits]
    cases opOf w <;> simp [OpName.bits, OpName.mask]
  · have hset : reservedBitsSet w = true := by
      rw [reservedBitsSet_iff]
      rcases hb with hrsv | ⟨hic, hop⟩
      · exact .inl hrsv
      · exact .inr (.inl ⟨hic, fun h => hop ((and_op_eq_iff w .encRpcResponse).2 h)⟩)
    exact Machine.step_of_decode_error hcfg hf hr (decode_of_reservedBits (opOf_ne_reservedOp hw) hset s.cfg x)

/-! ### The opcode table (R87) -/

/-- The match of a row is a test of OP and a test of the bits the row fixes below OP. -/
theorem and_mask_eq_pattern_iff (w : ReqWord) (op : OpName) :
    w &&& op.mask = op.pattern ↔ opOf w = op ∧ w &&& (op.mask &&& 0x1FFF#16) = 0 := by
  obtain ⟨hop, hmask, hlow, hor⟩ : op.bits ++ 0#13 = op.pattern ∧ op.mask &&& 0xE000#16 = 0xE000#16 ∧
      op.pattern &&& 0x1FFF#16 = 0 ∧ 0xE000#16 ||| op.mask &&& 0x1FFF#16 = op.mask := by
    cases op <;> decide
  rw [← and_op_eq_iff, hop]
  constructor
  · intro h
    have htop : op.pattern &&& 0xE000#16 = op.pattern := by
      cases op <;> decide
    exact ⟨by rw [← hmask, ← BitVec.and_assoc, h, htop], by rw [← BitVec.and_assoc, h, hlow]⟩
  · rintro ⟨htop, hrest⟩
    rw [← hor, BitVec.and_or_distrib_left, htop, hrest]
    exact BitVec.or_zero

theorem and_or_eq_zero_iff (w a b : ReqWord) : w &&& (a ||| b) = 0#16 ↔ w &&& a = 0#16 ∧ w &&& b = 0#16 := by
  rw [BitVec.and_or_distrib_left, BitVec.or_eq_zero_iff]

/-- R63, R64, R87: below OP, the row of a defined OP fixes its reserved bits. -/
theorem reservedBitsSet_eq_false_iff {w : ReqWord} (hop : opOf w ≠ .reservedOp) :
    reservedBitsSet w = false ↔ w &&& ((opOf w).mask &&& 0x1FFF#16) = 0 := by
  rw [← Bool.not_eq_true, reservedBitsSet_iff]
  cases h : opOf w
  case reservedOp => exact absurd h hop
  all_goals simp [OpName.mask, ← and_or_eq_zero_iff]

/-- Every word has a side operand of the kind its OP takes (R68). -/
theorem exists_decodeOperands {w : ReqWord} (hop : opOf w ≠ .reservedOp) :
    ∃ x i, decodeOperands (opOf w) w x = .ok i := by
  refine ⟨emptySide w, ?_⟩
  rw [emptySide]
  cases h : opOf w
  case reservedOp => exact absurd h hop
  all_goals exact ⟨_, rfl⟩

theorem op?_of_decodeOperands {op : OpName} {w : ReqWord} {x : SideOperand} {i : Instr}
    (h : decodeOperands op w x = .ok i) : i.op? = some op := by
  simp only [decodeOperands] at h
  split at h <;> cases h <;> rfl

/-- Which words decode to an instruction of an OP, with some side operand. -/
theorem exists_decode_op?_iff (cfg : Cfg) (w : ReqWord) (op : OpName) :
    (∃ x i, decode cfg (.request w x) = .ok i ∧ i.op? = some op) ↔
      opOf w = op ∧ (op ≠ .reservedOp → reservedBitsSet w = false) := by
  constructor
  · rintro ⟨x, i, hd, hi⟩
    rcases decode_request_eq_ok hd with ⟨hop, rfl⟩ | ⟨-, hb, hd⟩
    · obtain rfl : .reservedOp = op := Option.some.inj hi
      exact ⟨hop, fun hne => absurd rfl hne⟩
    · exact ⟨Option.some.inj ((op?_of_decodeOperands hd).symm.trans hi), fun _ => hb⟩
  · rintro ⟨rfl, hb⟩
    by_cases hop : opOf w = .reservedOp
    · exact ⟨.absent, _, decode_of_reservedOp hop cfg .absent, by rw [hop]; rfl⟩
    · obtain ⟨x, i, hd⟩ := exists_decodeOperands hop
      exact ⟨x, i, decode_of_clear hop (hb hop) cfg x ▸ hd, op?_of_decodeOperands hd⟩

/-- Settles O43: the bits a row fixes are OP and, for a defined OP, the reserved bits; and a word with clear reserved bits
decodes with the empty side operand of its kind. -/
theorem opcodeTableRowsExact : Obligations.OpcodeTableRowsExact := by
  intro cfg w op
  rw [exists_decode_op?_iff, and_mask_eq_pattern_iff]
  refine and_congr_right fun hop => ?_
  subst hop
  by_cases hop : opOf w = .reservedOp
  · simp [hop, OpName.mask]
  · simp [hop, reservedBitsSet_eq_false_iff hop]

/-- Settles O44: each of the words has clear reserved bits and each of the bytes is a code of DP. -/
theorem specWordsDecode : Obligations.SpecWordsDecode :=
  fun _ => ⟨rfl, rfl, rfl, rfl, rfl, rfl, rfl, rfl, rfl, rfl, rfl, rfl⟩

end Sys2Proof
end

section
/-! PROOFS. What the block sends, read back: the lengths of the frames (R80 to R82) and the fields of a response payload
(R79, R109). -/

namespace Sys2Proof.Machine

/-! ### Lengths (R80 to R82) -/

@[simp] theorem length_frameBytes (cfg : Cfg) (t : FrameType) (pl : Bytes) :
    (frameBytes cfg t pl).length = 9 + pl.length := by
  simp [frameBytes, magic]
  omega

@[simp] theorem length_withChecksum (f : Bytes) : (withChecksum f).length = f.length + 1 := by
  simp [withChecksum]

@[simp] theorem length_fieldBytes (f : List Bytes) : (fieldBytes f).length = totalLen f := by
  simp [fieldBytes, totalLen, List.length_flatMap, Nat.add_comm]

@[simp] theorem length_responsePayload (cfg : Cfg) (c : Command) (f : List Bytes) :
    (responsePayload cfg c f).length = 2 + totalLen f := by
  simp [responsePayload]
  omega

theorem length_responseFrame (cfg : Cfg) (ic : Bool) (c : Command) (f : List Bytes) :
    (responseFrame cfg ic c f).length = (if ic then 12 else 11) + totalLen f := by
  cases ic <;> simp [responseFrame] <;> omega

/-- R66: the selectors 0 to 4 name an error. -/
theorem exists_errorOfSel {esel : BitVec 3} (h : esel.toNat ≤ 4) : ∃ e, errorOfSel esel = some e := by
  have hsome : (errorOfSel esel).isSome = true := by
    revert esel; decide
  exact Option.isSome_iff_exists.1 hsome

/-- Settles O12: each of the three answers one frame over an unchanged state, and a frame is 9 bytes and its payload, with
one more for a checksum. -/
theorem sentFrameLengths : Obligations.SentFrameLengths := by
  refine ⟨fun s st => ⟨_, exec_encState st s, ?_⟩, fun s esel hsel => ?_, fun s ic c f hlen =>
    ⟨_, exec_encRpcResponse_sent (by omega) ic c s, length_responseFrame s.cfg ic c f⟩⟩
  · simp [plainResponse]
  · obtain ⟨e, he⟩ := exists_errorOfSel hsel
    exact ⟨_, exec_encError_of_sel he s, by simp [plainResponse]⟩

/-! ### Reading a response payload back (R15, R79, R109) -/

/-- A length byte determines a length of at most 255. -/
theorem eq_of_lengthByte_eq {m n : Nat} (hm : m < 256) (hn : n < 256) (h : BitVec.ofNat 8 m = BitVec.ofNat 8 n) :
    m = n := by
  have h := congrArg BitVec.toNat h
  rwa [BitVec.toNat_ofNat, BitVec.toNat_ofNat, Nat.mod_eq_of_lt hm, Nat.mod_eq_of_lt hn] at h

@[simp] theorem totalLen_cons (x : Bytes) (f : List Bytes) : totalLen (x :: f) = 1 + x.length + totalLen f := by
  simp [totalLen]

@[simp] theorem fieldBytes_cons (x : Bytes) (f : List Bytes) :
    fieldBytes (x :: f) = BitVec.ofNat 8 x.length :: (x ++ fieldBytes f) := rfl

/-- R109: the length byte of each field says where the next one begins. -/
theorem fieldBytes_inj {f g : List Bytes} (hf : totalLen f < 256) (hg : totalLen g < 256)
    (h : fieldBytes f = fieldBytes g) : f = g := by
  induction f generalizing g with
  | nil =>
    cases g with
    | nil => rfl
    | cons y g => cases h
  | cons x f ih =>
    cases g with
    | nil => cases h
    | cons y g =>
      rw [totalLen_cons] at hf hg
      rw [fieldBytes_cons, fieldBytes_cons, List.cons.injEq] at h
      obtain ⟨hlen, hrest⟩ := h
      obtain ⟨rfl, hfg⟩ := List.append_inj hrest (eq_of_lengthByte_eq (by omega) (by omega) hlen)
      rw [ih (by omega) (by omega) hfg]

/-- Settles O10: the command id is in a table without repeats, and the fields are read off one by one. -/
theorem responsePayloadDeterminesFields : Obligations.ResponsePayloadDeterminesFields := by
  intro cfg c c' f g hcfg hf hg h
  obtain ⟨hc, -, hfg⟩ : cfg.cmdCode c = cfg.cmdCode c' ∧ _ ∧ fieldBytes f = fieldBytes g := by
    simpa [responsePayload] using h
  exact ⟨Cfg.cmdCode_injective hcfg hc, fieldBytes_inj (by omega) (by omega) hfg⟩

end Sys2Proof.Machine
end

section
/-! PROOFS. The WIFI_SETTINGS payload (R78, R144 to R147). -/

namespace Sys2Proof.Machine

theorem toNat_lengthByte {n : Nat} (h : n ≤ 255) : (BitVec.ofNat 8 n).toNat = n := by
  rw [BitVec.toNat_ofNat]
  exact Nat.mod_eq_of_lt (by omega)

/-- R144 to R147: a payload laid out as ARG_LENGTH, a nonempty ssid and a password, each after its length byte, decodes to
the two; bytes after them are ignored. -/
theorem decodeWifi_of_layout {id a sl q : Byte} {ssid pw trail : Bytes} (hssid : ssid.length = sl.toNat)
    (hpw : pw.length = q.toNat) (hne : sl.toNat ≠ 0)
    (ha : 2 + a.toNat ≤ ([id, a, sl] ++ ssid ++ [q] ++ pw ++ trail).length) :
    decodeWifi id ([id, a, sl] ++ ssid ++ [q] ++ pw ++ trail) =
      .ok { kind := .wifiSettings, id := id, ssid := ssid, password := pw } := by
  generalize hpl : [id, a, sl] ++ ssid ++ [q] ++ pw ++ trail = pl at ha ⊢
  have hlen : pl.length = 4 + sl.toNat + q.toNat + trail.length := by
    simp [← hpl, hssid, hpw]
    omega
  have harg : pl[1]? = some a := by
    simp [← hpl]
  have hsl : pl[2]? = some sl := by
    simp [← hpl]
  have hq : pl[3 + sl.toNat]? = some q := by
    simp [← hpl, ← hssid, Nat.add_comm 3]
  have hdrop : pl.drop 3 = ssid ++ (q :: (pw ++ trail)) := by
    simp [← hpl]
  have hdrop' : pl.drop (4 + sl.toNat) = pw ++ trail := by
    rw [show 4 + sl.toNat = 3 + (ssid.length + 1) by omega, ← List.drop_drop, hdrop]
    simp
  simp only [decodeWifi, harg, hsl, hq, hdrop, hdrop']
  rw [if_neg (by omega), if_neg (by omega), if_neg hne, if_neg (by omega), List.take_left' hssid, List.take_left' hpw]

theorem decodeRpc_wifiSettings {cfg : Cfg} (h : cfg.WellFormed) (rest : Bytes) :
    decodeRpc cfg (cfg.cmdWifiSettings :: rest) = decodeWifi cfg.cmdWifiSettings (cfg.cmdWifiSettings :: rest) := by
  have hk : cfg.kindOf cfg.cmdWifiSettings = .wifiSettings := Cfg.kindOf_cmdCode h .wifiSettings
  simp [decodeRpc, hk]

@[simp] theorem length_wifiPayload (cfg : Cfg) (ssid pw : Bytes) :
    (wifiPayload cfg ssid pw).length = 4 + ssid.length + pw.length := by
  simp [wifiPayload]
  omega

/-- Settles O17: the payload has the layout the decoder reads, and within 255 bytes its length bytes are the lengths. -/
theorem wifiPayloadRoundTrip : Obligations.WifiPayloadRoundTrip := by
  intro cfg ssid pw hcfg hne hlen
  rw [length_wifiPayload] at hlen
  have hpos : ssid.length ≠ 0 := List.length_eq_zero_iff.not.2 hne
  have h := decodeWifi_of_layout (id := cfg.cmdWifiSettings) (a := BitVec.ofNat 8 (2 + ssid.length + pw.length))
    (sl := BitVec.ofNat 8 ssid.length) (q := BitVec.ofNat 8 pw.length) (ssid := ssid) (pw := pw) (trail := [])
    (toNat_lengthByte (by omega)).symm (toNat_lengthByte (by omega)).symm (by rwa [toNat_lengthByte (by omega)])
    (by rw [toNat_lengthByte (by omega)]; simp; omega)
  rw [List.append_nil] at h
  exact (decodeRpc_wifiSettings hcfg _).trans h

end Sys2Proof.Machine
end

section
/-! PROOFS. The step (R60, R69), and the wire-code rows as received bytes (log entry 11). -/

namespace Sys2Proof.Machine

/-! ### The step -/

/-- Settles O36: the step's equation for a request that decodes. -/
theorem stepRunsDecoded : Obligations.StepRunsDecoded :=
  fun _ _ _ _ hcfg hf hr hd => step_of_decode_ok hcfg hf hr hd

/-- Settles O40: a step with a request presented does not wait, so it answers one response, which keeps the mark clear, or
raises a fault. -/
theorem oneResponseOrFault : Obligations.OneResponseOrFault := by
  intro s t x rest hr h
  obtain ⟨hf, ⟨hnil, -⟩ | ⟨x', rest', hr', ha⟩⟩ := step_waits_or_answersOne_or_fault h
  · cases hnil.symm.trans hr
  · obtain ⟨-, rfl⟩ : x' = x ∧ rest' = rest := List.cons.inj (hr'.symm.trans hr)
    rcases ha with ha | ⟨r, rfl⟩
    · obtain ⟨r, hresp⟩ := ha.responses
      exact ⟨ha.requests, .inl ⟨r, hresp, ha.fault.trans hf⟩⟩
    · exact ⟨rfl, .inr ⟨r, rfl⟩⟩

/-! ### A received byte is stored or ends the attempt (R171, R179, R183) -/

theorem State.endAttempt_eq_ended (s : State) (st : Status) (c : Option Cmd) :
    s.endAttempt st c = s.ended st (consumedFlag st c) c := rfl

theorem State.receiveByte_stored {s : State} {b : Byte} (hcfg : s.cfg.WellFormed) (hst : s.ToStore b) :
    ∃ t, s.receiveByte b = .next t ∧ s.Stored b t :=
  ⟨_, State.receiveByte_toStore hst, State.storeByte_stored (hst.p_lt_cap hcfg) b⟩

theorem State.completeFrame_ended (s : State) (pl : Bytes) :
    ∃ st c k, st ≠ .accepted ∧ s.completeFrame pl = s.ended st k c := by
  rw [State.completeFrame]
  cases decodeRpc s.cfg pl with
  | ok c => exact ⟨.command, some c, _, by decide, s.endAttempt_eq_ended .command (some c)⟩
  | error e => exact ⟨.decodeError, none, _, by decide, s.endAttempt_eq_ended .decodeError none⟩

/-- A byte that fails its position's check, or stands past the payload, ends the attempt. -/
theorem State.receiveByte_ended {s t : State} {b : Byte} (hst : ¬ s.ToStore b) (h : s.receiveByte b = .next t) :
    ∃ st c k, st ≠ .accepted ∧ t = s.ended st k c := by
  rcases State.receiveByte_cases h with ⟨hst', -⟩ | ⟨-, -, rfl⟩ | ⟨-, -, rfl⟩ | ⟨-, -, rfl⟩ |
    ⟨l, -, -, -, ⟨-, rfl⟩ | ⟨-, pl, -, rfl⟩⟩
  · exact absurd hst' hst
  · exact ⟨.rejMagic, none, _, by decide, s.endAttempt_eq_ended .rejMagic none⟩
  · exact ⟨.rejVersion, none, _, by decide, s.endAttempt_eq_ended .rejVersion none⟩
  · exact ⟨.rejType, none, _, by decide, s.endAttempt_eq_ended .rejType none⟩
  · exact ⟨.checksumError, none, _, by decide, s.endAttempt_eq_ended .checksumError none⟩
  · exact s.completeFrame_ended pl

/-- R170, R183: under the invariants a byte has an outcome, and its position's check says which. -/
theorem State.Inv.receiveByte_stored_or_ended {s : State} (h : s.Inv) (b : Byte) :
    ∃ t, s.receiveByte b = .next t ∧ (s.ToStore b → s.Stored b t) ∧
      (¬ s.ToStore b → ∃ st c k, st ≠ .accepted ∧ t = s.ended st k c) := by
  by_cases hst : s.ToStore b
  · obtain ⟨t, ht, hstored⟩ := State.receiveByte_stored h.cfgWf hst
    exact ⟨t, ht, fun _ => hstored, fun hn => absurd hst hn⟩
  · obtain ⟨t, ht⟩ := h.receiveByte_next b
    exact ⟨t, ht, fun hst' => absurd hst' hst, fun _ => State.receiveByte_ended hst ht⟩

/-! ### The wire-code rows -/

/-- R174: a type code other than RPC_COMMAND's ends the attempt at offset 7. -/
theorem State.receiveByte_otherType {s : State} {t : FrameType} (hcfg : s.cfg.WellFormed) (hp : s.p = 7)
    (ht : t ≠ .rpcCommand) : s.receiveByte (s.cfg.typeCode t) = .next (s.ended .rejType false none) :=
  State.receiveByte_rejType hp fun h => ht (Cfg.typeCode_injective hcfg (h : _ = s.cfg.typeCode .rpcCommand))

/-- Settles O45: a type row is the reception of its type code, and the codes differ. -/
theorem typeBytesAtOffsetSeven : Obligations.TypeBytesAtOffsetSeven := fun _ hcfg hp =>
  ⟨State.receiveByte_stored hcfg (.inr (.inr (.inl ⟨hp, rfl⟩))),
    State.receiveByte_otherType (t := .currentState) hcfg hp (by decide),
    State.receiveByte_otherType (t := .errorState) hcfg hp (by decide),
    State.receiveByte_otherType (t := .rpcResponse) hcfg hp (by decide)⟩

/-- Settles O46: a command row is the reception of its id, and with `L >= 1` every byte is stored at position 9. -/
theorem commandIdsAtPayloadStart : Obligations.CommandIdsAtPayloadStart := by
  intro s l hcfg hp hl hpos
  have stored (b : Byte) : ∃ t, s.receiveByte b = .next t ∧ s.Stored b t :=
    State.receiveByte_stored hcfg (.inr (.inr (.inr (.inr ⟨by omega, l, hl, by omega⟩))))
  exact ⟨stored _, stored _, stored _, stored _, stored⟩

/-- Settles O47: each of the rows encodes to a wire byte, so it is the reception of that byte. -/
theorem wireCodesAreReceived : Obligations.WireCodesAreReceived := by
  intro s i b hs hrow
  obtain ⟨c, hc⟩ : ∃ c, encode s.cfg i = .wire c b := by
    rcases hrow with hrow | rfl
    · simp only [List.mem_cons, List.not_mem_nil, or_false, Prod.mk.injEq] at hrow
      rcases hrow with ⟨rfl, rfl⟩ | ⟨rfl, rfl⟩ | ⟨rfl, rfl⟩ | ⟨rfl, rfl⟩ | ⟨rfl, rfl⟩ | ⟨rfl, rfl⟩ | ⟨rfl, rfl⟩ |
        ⟨rfl, rfl⟩ | ⟨rfl, rfl⟩ | ⟨rfl, rfl⟩ | ⟨rfl, rfl⟩ | ⟨rfl, rfl⟩ | ⟨rfl, rfl⟩ | ⟨rfl, rfl⟩ | ⟨rfl, rfl⟩ |
        ⟨rfl, rfl⟩ | ⟨rfl, rfl⟩
      all_goals exact ⟨_, rfl⟩
    · exact ⟨.command, rfl⟩
  rw [exec_of_encode_wire hc]
  exact hs.receiveByte_stored_or_ended b

end Sys2Proof.Machine
end

section
/-! PROOFS. A whole frame received from `p = 0` (R86, R171 to R178, R187): its bytes but the last are accepted one by one, and
the checksum byte completes it; and requests presented one by one are bytes received one by one. -/

namespace Sys2Proof.Machine

/-! ### An attempt in progress (R22, R23, R183) -/

/-- `t` is `s`, which stood at the start of an attempt, after the bytes `x` have been accepted. -/
structure State.Accepted (s : State) (x : Bytes) (t : State) : Prop where
  p : t.p = x.length
  sum : t.sum = sum8 x
  bytes : t.buf.readRange 0 x.length = some x
  cfg : t.cfg = s.cfg
  fault : t.fault = s.fault
  requests : t.requests = s.requests
  responses : t.responses = s.responses ++ acceptedN x.length

theorem State.accepted_nil {s : State} (hp : s.p = 0) (hsum : s.sum = 0#8) : s.Accepted [] s :=
  ⟨hp, hsum, rfl, rfl, rfl, rfl, (List.append_nil _).symm⟩

/-- One more byte. -/
theorem State.Accepted.stored {s t u : State} {x : Bytes} {b : Byte} (h : s.Accepted x t) (hu : t.Stored b u) :
    s.Accepted (x ++ [b]) u where
  p := by rw [hu.p, h.p, List.length_append, List.length_singleton]
  sum := by rw [hu.sum, h.sum]; simp
  bytes := by
    have hkept : u.buf.readRange 0 x.length = some x :=
      (Memory.readRange_congr fun a _ ha => hu.others a (by rw [h.p]; omega)).trans h.bytes
    have hlast : u.buf.read (0 + x.length) = some b := by rw [Nat.zero_add, ← h.p, hu.byte]
    rw [List.length_append, List.length_singleton, Memory.readRange_succ hkept hlast]
  cfg := hu.cfg.trans h.cfg
  fault := hu.fault.trans h.fault
  requests := hu.requests.trans h.requests
  responses := by
    rw [hu.responses, h.responses, List.append_assoc, List.length_append, List.length_singleton, acceptedN, acceptedN,
      List.replicate_succ']

theorem State.Accepted.read {s t : State} {x : Bytes} (h : s.Accepted x t) {k : Nat} (hk : k < x.length) :
    t.buf.read k = x[k]? := by
  simpa using Memory.readRange_get h.bytes hk

/-! ### The bytes of a frame but its checksum (R171 to R176) -/

/-- R18: a frame's header and payload by position. -/
theorem frameBytes_eq (cfg : Cfg) (t : FrameType) (pl : Bytes) :
    frameBytes cfg t pl = [0x49#8, 0x4D#8, 0x50#8, 0x52#8, 0x4F#8, 0x56#8, cfg.version, cfg.typeCode t,
      BitVec.ofNat 8 pl.length] ++ pl := rfl

/-- Each byte of a command frame but its checksum passes the check of its position. -/
theorem State.Accepted.toStore {s t : State} {pl : Bytes} {n : Nat} (hpl : pl.length ≤ 255)
    (hn : n < (frameBytes s.cfg .rpcCommand pl).length)
    (h : s.Accepted ((frameBytes s.cfg .rpcCommand pl).take n) t) :
    t.ToStore (frameBytes s.cfg .rpcCommand pl)[n] := by
  have hp : t.p = n := by
    rw [h.p, List.length_take, Nat.min_eq_left (by omega)]
  rw [State.ToStore, hp, h.cfg]
  obtain hn5 | rfl | rfl | rfl | h9 : n ≤ 5 ∨ n = 6 ∨ n = 7 ∨ n = 8 ∨ 9 ≤ n := by omega
  · refine .inl ⟨hn5, ?_⟩
    interval_cases n <;> rfl
  · exact .inr (.inl ⟨rfl, rfl⟩)
  · exact .inr (.inr (.inl ⟨rfl, rfl⟩))
  · exact .inr (.inr (.inr (.inl rfl)))
  · refine .inr (.inr (.inr (.inr ⟨h9, BitVec.ofNat 8 pl.length, ?_, ?_⟩)))
    · rw [h.read (by rw [List.length_take]; omega), List.getElem?_take_of_lt (by omega)]
      rfl
    · rw [length_frameBytes] at hn
      rw [toNat_lengthByte hpl]
      omega

/-- R187, the part before the checksum byte: every byte is accepted. -/
theorem feed_frameBytes {s : State} {pl : Bytes} (hcfg : s.cfg.WellFormed) (hp : s.p = 0) (hsum : s.sum = 0#8)
    (hpl : pl.length ≤ 255) :
    ∃ t, feed (frameBytes s.cfg .rpcCommand pl) s = .next t ∧ s.Accepted (frameBytes s.cfg .rpcCommand pl) t := by
  have upTo (n : Nat) (hn : n ≤ (frameBytes s.cfg .rpcCommand pl).length) :
      ∃ t, feed ((frameBytes s.cfg .rpcCommand pl).take n) s = .next t ∧
        s.Accepted ((frameBytes s.cfg .rpcCommand pl).take n) t := by
    induction n with
    | zero => exact ⟨s, rfl, State.accepted_nil hp hsum⟩
    | succ n ih =>
      obtain ⟨t, hfeed, hacc⟩ := ih (by omega)
      obtain ⟨u, hu, hstored⟩ := State.receiveByte_stored (hacc.cfg ▸ hcfg) (hacc.toStore hpl hn)
      rw [List.take_succ_eq_append_getElem hn, feed_append_next hfeed]
      exact ⟨u, feed_cons_next hu [], hacc.stored hstored⟩
  have hall := upTo _ (Nat.le_refl _)
  rwa [List.take_length] at hall

/-- R178: the checksum byte of a command frame completes it. -/
theorem State.Accepted.receiveByte_checksum {s t : State} {pl : Bytes} (hpl : pl.length ≤ 255)
    (h : s.Accepted (frameBytes s.cfg .rpcCommand pl) t) :
    t.receiveByte (sum8 (frameBytes s.cfg .rpcCommand pl)) = .next (t.completeFrame pl) := by
  have hlen : t.buf.read 8 = some (BitVec.ofNat 8 pl.length) := by
    rw [h.read (by rw [length_frameBytes]; omega)]
    rfl
  have hpay : t.buf.readRange 9 pl.length = some pl := by
    rw [Memory.readRange_sub h.bytes (by rw [length_frameBytes]), frameBytes_eq]
    simp
  refine State.receiveByte_completeFrame hlen ?_ h.sum.symm (by rwa [toNat_lengthByte hpl])
  rw [toNat_lengthByte hpl, h.p, length_frameBytes]
  omega

/-- R187: a command frame received from the start of an attempt is accepted up to its checksum byte, which ends the attempt
with the response its payload gives. -/
theorem feed_commandFrame {s : State} {pl : Bytes} (hcfg : s.cfg.WellFormed) (hp : s.p = 0) (hsum : s.sum = 0#8)
    (hpl : pl.length ≤ 255) :
    ∃ t, feed (commandFrame s.cfg pl) s = .next t ∧ t.p = 0 ∧ t.sum = 0#8 ∧ t.cfg = s.cfg ∧ t.fault = s.fault ∧
      t.requests = s.requests ∧
      t.responses = s.responses ++ acceptedN (9 + pl.length) ++ [completionResponse s.cfg pl] := by
  obtain ⟨t, hfeed, hacc⟩ := feed_frameBytes hcfg hp hsum hpl
  refine ⟨t.completeFrame pl, ?_, ?_⟩
  · rw [commandFrame, withChecksum, feed_append_next hfeed]
    exact feed_cons_next (hacc.receiveByte_checksum hpl) []
  · rw [State.completeFrame_eq]
    exact ⟨rfl, rfl, hacc.cfg, hacc.fault, hacc.requests, by rw [hacc.responses, hacc.cfg, length_frameBytes]⟩

/-! ### Presented byte by byte (R60, R86) -/

theorem State.storeByte_withRequests (s : State) (b : Byte) (rq : List Presented) :
    State.storeByte b { s with requests := rq } = { s.storeByte b with requests := rq } := by
  simp only [State.storeByte]
  split <;> rfl

theorem State.completeFrame_withRequests (s : State) (pl : Bytes) (rq : List Presented) :
    State.completeFrame pl { s with requests := rq } = { s.completeFrame pl with requests := rq } := by
  simp only [State.completeFrame]
  split <;> rfl

/-- A received byte neither reads nor changes the requests to come. -/
theorem State.receiveByte_withRequests {s t : State} {b : Byte} (h : s.receiveByte b = .next t)
    (rq : List Presented) :
    State.receiveByte b { s with requests := rq } = .next { t with requests := rq } := by
  rcases State.receiveByte_cases h with ⟨hst, rfl⟩ | ⟨hp, hb, rfl⟩ | ⟨hp, hb, rfl⟩ | ⟨hp, hb, rfl⟩ |
    ⟨l, hl, hlp, hp, ⟨hb, rfl⟩ | ⟨hb, pl, hpl, rfl⟩⟩
  · rw [← State.storeByte_withRequests]
    exact State.receiveByte_toStore hst
  · exact State.receiveByte_rejMagic hp hb
  · exact State.receiveByte_rejVersion hp hb
  · exact State.receiveByte_rejType hp hb
  · exact State.receiveByte_checksumError hl hlp hb
  · rw [← State.completeFrame_withRequests]
    exact State.receiveByte_completeFrame hl hlp hb hpl

/-- R60, R86: the RX_BYTE requests of a byte sequence are taken one a step, and do what the bytes do received one by one. -/
theorem core_run_rxSeq {s t : State} {bs : Bytes} {rest : List Presented} (hcfg : s.cfg.WellFormed)
    (hf : s.fault = none) (hr : s.requests = rxSeq s.cfg bs ++ rest)
    (h : feed bs { s with requests := rest } = .next t) : core.run bs.length s = .next t := by
  induction bs generalizing s with
  | nil =>
    cases h
    rw [rxSeq, List.map_nil, List.nil_append] at hr
    simp [← hr]
  | cons b bs ih =>
    cases he : exec (.rxByte b) { s with requests := rest } with
    | fault r => simp [feed, he] at h
    | refused r => simp [feed, he] at h
    | next u =>
      rw [feed_cons_next he] at h
      have hans := State.receiveByte_answersOne he
      have hstep : step s = .next { u with requests := rxSeq s.cfg bs ++ rest } :=
        (step_of_decode_ok hcfg hf hr (decode_encode_rxByte s.cfg b)).trans (State.receiveByte_withRequests he _)
      obtain rfl : u.requests = rest := hans.requests
      rw [List.length_cons, core_run_next hstep]
      exact ih (hans.cfg ▸ hcfg) (hans.fault.trans hf) (by rw [hans.cfg]) h

/-- Settles O48: the requests present the frame of the WIFI_SETTINGS payload byte by byte, and that payload decodes to the
ssid and the password. -/
theorem wifiCredentialsDelivered : Obligations.WifiCredentialsDelivered := by
  intro s ssid pw rest hcfg hf hp hsum hne hlen hr
  obtain ⟨t, hfeed, htp, htsum, -, -, htr, hresp⟩ :=
    feed_commandFrame (s := { s with requests := rest }) hcfg hp hsum hlen
  have hrun := core_run_rxSeq hcfg hf hr hfeed
  have hframe : (commandFrame s.cfg (wifiPayload s.cfg ssid pw)).length =
      10 + (wifiPayload s.cfg ssid pw).length := by
    rw [commandFrame, length_withChecksum, length_frameBytes]
    omega
  refine ⟨t, hframe ▸ hrun, htp, htsum, htr, ?_⟩
  rw [hresp, completionResponse, wifiPayloadRoundTrip s.cfg ssid pw hcfg hne hlen]
  rfl

end Sys2Proof.Machine
end

section
/-! PROOFS. The checksum: what a change of its bytes does to it (R103), and its closed form for a frame of one payload byte
(R105). -/

namespace Sys2Proof.Machine

/-! ### What the checksum detects (R103) -/

/-- One byte replaced by another changes the sum by their difference. -/
theorem sum8_set {x : Bytes} {i : Nat} (hi : i < x.length) (y : Byte) : sum8 (x.set i y) = sum8 x + (y - x[i]) := by
  induction x generalizing i with
  | nil => simp at hi
  | cons b x ih =>
    cases i with
    | zero =>
      simp only [List.set_cons_zero, sum8_cons, List.getElem_cons_zero]
      ring
    | succ i =>
      simp only [List.set_cons_succ, sum8_cons, List.getElem_cons_succ, ih (Nat.lt_of_succ_lt_succ hi)]
      ring

theorem sum8_perm {x y : Bytes} (h : x.Perm y) : sum8 x = sum8 y := by
  rw [sum8, sum8, (h.map BitVec.toNat).sum_eq]

/-- Settles O5: a replaced byte moves the sum by the difference of the two bytes, which is zero only when they are equal, and
which a second replacement by the opposite difference undoes. -/
theorem checksumDetectionLaws : Obligations.ChecksumDetectionLaws := by
  refine ⟨fun x i y hne heq => ?_, fun x y => sum8_perm, fun x i j d hij => ?_⟩
  · rw [sum8_set i.isLt, add_eq_left, sub_eq_zero] at heq
    exact hne heq
  · have hj : (x.set i (x[i] + d))[(j : Nat)]'(by simp) = x[j] :=
      List.getElem_set_ne (Fin.val_ne_of_ne hij) _
    rw [sum8_set (by simp), hj, sum8_set i.isLt]
    simp only [Fin.getElem_fin]
    ring

/-! ### The closed form of a state or error frame's checksum (R105) -/

/-- R105: the marker's bytes sum to 0xDD. -/
theorem sum8_frameBytes_singleton (cfg : Cfg) (t : FrameType) (v : Byte) :
    sum8 (frameBytes cfg t [v]) = 0xDD#8 + cfg.version + cfg.typeCode t + 1#8 + v := by
  have hmagic : sum8 magic = 0xDD#8 := by decide
  simp only [frameBytes, sum8_append, hmagic, sum8_cons, sum8_nil, BitVec.add_zero, List.length_singleton]
  ring

/-- Settles O8: the closed form for every configuration, at the version and the two type codes of DP. -/
theorem stateErrorChecksumClosedForm : Obligations.StateErrorChecksumClosedForm :=
  ⟨sum8_frameBytes_singleton, fun v => ⟨sum8_frameBytes_singleton Cfg.dp .currentState v,
    sum8_frameBytes_singleton Cfg.dp .errorState v⟩⟩

end Sys2Proof.Machine
end

section
/-! PROOFS. What the encoder and CHECKSUM requests answer, byte for byte, with their words and their reserved words (R101, R104,
R106, R107). -/

namespace Sys2Proof.Machine

/-! ### Words (R62 to R67) -/

/-- R63, R64: a word that sets a bit its OP's row fixes below OP is a request fault. -/
theorem decode_of_reserved_mask {w : ReqWord} {op : OpName} (hop : op ≠ .reservedOp)
    (hw : w &&& 0xE000#16 = op.bits ++ 0#13) (hb : w &&& (op.mask &&& 0x1FFF#16) ≠ 0) (cfg : Cfg) (x : SideOperand) :
    decode cfg (.request w x) = .error (.requestFault .reservedBits) := by
  obtain rfl : opOf w = op := (and_op_eq_iff w op).1 hw
  refine decode_of_reservedBits hop ?_ cfg x
  rwa [← Bool.not_eq_false, reservedBitsSet_eq_false_iff hop]

theorem decode_encode_encError (cfg : Cfg) (esel : BitVec 3) :
    decode cfg (encode cfg (.encError esel)) = .ok (.encError esel) := by
  simp only [encode]
  rw [decode_mkWord (by decide) (by simp [argReserved])]
  simp [decodeOperands]

theorem decode_encode_encRpcResponse (cfg : Cfg) (ic : Bool) (c : Command) (f : List Bytes) :
    decode cfg (encode cfg (.encRpcResponse ic c f)) = .ok (.encRpcResponse ic c f) := by
  simp only [encode]
  rw [decode_mkWord (by decide) (by simp [argReserved])]
  simp [decodeOperands]

/-- R66: the word of ENC_ERROR. -/
theorem mkWord_encError (esel : BitVec 3) :
    mkWord OpName.encError.bits false (0#5 ++ esel) = 0x6000#16 ||| esel.setWidth 16 := by
  revert esel; decide

/-! ### The frames spelled out (R72, R104, R106, R107) -/

/-- A frame of one payload byte with its checksum. -/
theorem withChecksum_frameBytes_singleton (cfg : Cfg) (t : FrameType) (v : Byte) :
    withChecksum (frameBytes cfg t [v]) =
      [0x49#8, 0x4D#8, 0x50#8, 0x52#8, 0x4F#8, 0x56#8, cfg.version, cfg.typeCode t, 1#8, v,
        sum8 [0x49#8, 0x4D#8, 0x50#8, 0x52#8, 0x4F#8, 0x56#8, cfg.version, cfg.typeCode t, 1#8, v]] := rfl

/-- An RPC_RESPONSE frame but its checksum. -/
theorem frameBytes_responsePayload (cfg : Cfg) (c : Command) (f : List Bytes) :
    frameBytes cfg .rpcResponse (responsePayload cfg c f) =
      [0x49#8, 0x4D#8, 0x50#8, 0x52#8, 0x4F#8, 0x56#8, cfg.version, cfg.typeRpcResponse, BitVec.ofNat 8 (2 + totalLen f),
        cfg.cmdCode c, BitVec.ofNat 8 (totalLen f)] ++ fieldBytes f := by
  rw [frameBytes_eq, length_responsePayload]
  rfl

/-! ### The requests -/

/-- Settles O4: the answer is `sum8`, and the row of CHECKSUM fixes every bit below OP. -/
theorem checksumRequestAnswers : Obligations.ChecksumRequestAnswers :=
  ⟨fun s d => ⟨sum8 d, sum8_toNat d, exec_checksum d s⟩, fun _ _ => rfl,
    fun cfg _ x hw hb => decode_of_reserved_mask (op := .checksum) (by decide) hw hb cfg x⟩

/-- Settles O6: the state's code is the payload byte, and the row of ENC_STATE fixes all but the two selector bits. -/
theorem encodeStateFrame : Obligations.EncodeStateFrame := by
  refine ⟨fun s st v hv => ?_, fun _ => ⟨rfl, rfl, rfl, rfl⟩,
    fun cfg _ x hw hb => decode_of_reserved_mask (op := .encState) (by decide) hw hb cfg x⟩
  obtain rfl : v = s.cfg.stateCode st := by
    cases st <;> simpa [Cfg.stateCode] using hv
  exact ⟨_, rfl, by rw [exec_encState, withChecksum_frameBytes_singleton]; rfl⟩

/-- R66: the errors by selector, in the order of the table. -/
theorem errorOfSel_of_mem {cfg : Cfg} {esel : BitVec 3} {v : Byte}
    (h : (esel, v) ∈ [(0#3, cfg.errNone), (1#3, cfg.errInvalidRpc), (2#3, cfg.errUnknownRpc),
      (3#3, cfg.errUnableToConnect), (4#3, cfg.errNotAuthorized)]) :
    ∃ e, errorOfSel esel = some e ∧ v = cfg.errorCode e := by
  simp only [List.mem_cons, List.not_mem_nil, or_false, Prod.mk.injEq] at h
  rcases h with ⟨rfl, rfl⟩ | ⟨rfl, rfl⟩ | ⟨rfl, rfl⟩ | ⟨rfl, rfl⟩ | ⟨rfl, rfl⟩
  all_goals exact ⟨_, rfl, rfl⟩

/-- R66: the selectors 5 to 7 are reserved. -/
theorem errorOfSel_eq_none {esel : BitVec 3} (h : 4 < esel.toNat) : errorOfSel esel = none := by
  revert esel; decide

/-- Settles O7: a selector of the table gives its error's code as the payload byte and any other gives no error; the row of
ENC_ERROR fixes all but the three selector bits. -/
theorem encodeErrorFrame : Obligations.EncodeErrorFrame := by
  refine ⟨fun s esel v hv => ?_, fun s esel hsel => exec_encError_reserved (errorOfSel_eq_none hsel) s,
    fun cfg esel => ?_, fun cfg _ x hw hb => decode_of_reserved_mask (op := .encError) (by decide) hw hb cfg x⟩
  · obtain ⟨e, he, rfl⟩ := errorOfSel_of_mem hv
    exact ⟨_, rfl, by rw [exec_encError_of_sel he, withChecksum_frameBytes_singleton]; rfl⟩
  · rw [← mkWord_encError]
    exact decode_encode_encError cfg esel

/-- R67, R107: the word of ENC_RPC_RESPONSE, with the commands in the order of the selector table. -/
theorem mkWord_encRpcResponse {c : Command} {n : Nat}
    (h : (c, n) ∈ [(Command.getCurrentState, 0), (.wifiSettings, 1), (.getDeviceInfo, 2), (.getWifiNetworks, 3)])
    (ic : Bool) : mkWord OpName.encRpcResponse.bits ic (0#6 ++ c.sel) =
      BitVec.ofNat 16 (0x8000 + (if ic then 0x100 else 0) + n) := by
  simp only [List.mem_cons, List.not_mem_nil, or_false, Prod.mk.injEq] at h
  rcases h with ⟨rfl, rfl⟩ | ⟨rfl, rfl⟩ | ⟨rfl, rfl⟩ | ⟨rfl, rfl⟩
  all_goals revert ic; decide

/-- Settles O9: the frame is the header, the command id, TOTAL_LEN and the fields, sent within the ceiling with or without its
checksum; the row of ENC_RPC_RESPONSE fixes all but IC and the two selector bits. -/
theorem encodeRpcResponseFrame : Obligations.EncodeRpcResponseFrame := by
  refine ⟨fun s ic c v f hv hlen => ?_, fun s ic c f hlen => exec_encRpcResponse_tooLong hlen ic c s,
    fun cfg f ic c n hn => ?_, fun cfg _ x hw hb => decode_of_reserved_mask (op := .encRpcResponse) (by decide) hw hb cfg x⟩
  · obtain rfl : v = s.cfg.cmdCode c := by
      cases c <;> simpa [Cfg.cmdCode] using hv
    exact ⟨_, frameBytes_responsePayload s.cfg c f, exec_encRpcResponse_sent (Nat.not_lt.2 hlen) ic c s⟩
  · rw [← mkWord_encRpcResponse hn]
    exact decode_encode_encRpcResponse cfg ic c f

end Sys2Proof.Machine
end

section
/-! PROOFS. Encoder output at the block's own receive path (R115): its header is accepted up to the type byte, which is no
RPC_COMMAND's. -/

namespace Sys2Proof.Machine

/-! ### The one response of an encoder request -/

/-- R69: the response an instruction answers over an unchanged state is the one that was returned. -/
theorem response_eq_of_exec {i : Instr} {s t : State} {r r' : Response} (he : exec i s = .next (s.respond r'))
    (h : exec i s = .next t) (hr : t.responses = s.responses ++ [r]) : r = r' := by
  cases he.symm.trans h
  simpa using hr.symm

/-- R240: an instruction that raises a request fault returns no response. -/
theorem responses_ne_of_exec_fault {i : Instr} {s t : State} {reason : RequestFaultReason}
    (he : exec i s = .next (s.raiseRequestFault reason)) (h : exec i s = .next t) (r : Response) :
    t.responses ≠ s.responses ++ [r] := by
  cases he.symm.trans h
  simp

/-- R104, R106, R107: an encoder request that answers has sent a frame of a type other than RPC_COMMAND, followed by its
checksum, which ENC_RPC_RESPONSE leaves out when `ic` is clear. -/
theorem encoder_response {i : Instr} {s t : State} {r : Response}
    (hi : (∃ st, i = .encState st) ∨ (∃ e, i = .encError e) ∨ ∃ ic c f, i = .encRpcResponse ic c f)
    (h : exec i s = .next t) (hr : t.responses = s.responses ++ [r]) :
    ∃ ty pl, ty ≠ .rpcCommand ∧ (r.data = withChecksum (frameBytes s.cfg ty pl) ∨
      r.data = frameBytes s.cfg ty pl ∧ ∃ c f, i = .encRpcResponse false c f) := by
  obtain ⟨st, rfl⟩ | ⟨esel, rfl⟩ | ⟨ic, c, f, rfl⟩ := hi
  · obtain rfl := response_eq_of_exec (exec_encState st s) h hr
    exact ⟨.currentState, _, by decide, .inl rfl⟩
  · cases hsel : errorOfSel esel with
    | none => exact absurd hr (responses_ne_of_exec_fault (exec_encError_reserved hsel s) h r)
    | some e =>
      obtain rfl := response_eq_of_exec (exec_encError_of_sel hsel s) h hr
      exact ⟨.errorState, _, by decide, .inl rfl⟩
  · by_cases hlen : 255 < 2 + totalLen f
    · exact absurd hr (responses_ne_of_exec_fault (exec_encRpcResponse_tooLong hlen ic c s) h r)
    · obtain rfl := response_eq_of_exec (exec_encRpcResponse_sent hlen ic c s) h hr
      cases ic with
      | true => exact ⟨.rpcResponse, _, by decide, .inl rfl⟩
      | false => exact ⟨.rpcResponse, _, by decide, .inr ⟨rfl, c, f, rfl⟩⟩

/-! ### The bytes before the type byte (R172, R173) -/

/-- R172, R173: the marker and the version byte pass the check of their positions. -/
theorem State.toStore_header {s : State} {b : Byte} (h : (magic ++ [s.cfg.version])[s.p]? = some b) : s.ToStore b := by
  obtain hp | hp | hp : s.p ≤ 5 ∨ s.p = 6 ∨ 7 ≤ s.p := by omega
  · rw [List.getElem?_append_left (Nat.lt_succ_of_le hp)] at h
    exact .inl ⟨hp, h⟩
  · rw [hp] at h
    exact .inr (.inl ⟨hp, (Option.some.inj h).symm⟩)
  · rw [List.getElem?_eq_none hp] at h
    cases h

/-- The rest of the marker and the version byte, from any position among them, is accepted byte by byte. -/
theorem feed_header {s : State} {x : Bytes} (hcfg : s.cfg.WellFormed) (hx : (magic ++ [s.cfg.version]).drop s.p = x) :
    ∃ t, feed x s = .next t ∧ t.p = s.p + x.length ∧ t.cfg = s.cfg ∧
      t.responses = s.responses ++ acceptedN x.length := by
  induction x generalizing s with
  | nil => exact ⟨s, rfl, rfl, rfl, (List.append_nil _).symm⟩
  | cons b x ih =>
    have hb : (magic ++ [s.cfg.version])[s.p]? = some b := by
      rw [← List.head?_drop, hx, List.head?_cons]
    obtain ⟨u, hu, hst⟩ := State.receiveByte_stored hcfg (State.toStore_header hb)
    have hrest : (magic ++ [u.cfg.version]).drop u.p = x := by
      rw [hst.cfg, hst.p, ← List.tail_drop, hx, List.tail_cons]
    obtain ⟨t, ht, htp, htcfg, hresp⟩ := ih (hst.cfg ▸ hcfg) hrest
    refine ⟨t, (feed_cons_next hu x).trans ht, ?_, htcfg.trans hst.cfg, ?_⟩
    · rw [htp, hst.p, List.length_cons]
      omega
    · rw [hresp, hst.responses, List.append_assoc]
      rfl

/-- R115, R174: the first eight bytes of a frame of another type are seven accepted and a rejected one. -/
theorem feed_take_otherType {s : State} {t : FrameType} (hcfg : s.cfg.WellFormed) (hp : s.p = 0) (ht : t ≠ .rpcCommand)
    (pl k : Bytes) : ∃ v, feed ((frameBytes s.cfg t pl ++ k).take 8) s = .next v ∧ v.p = 0 ∧ v.sum = 0#8 ∧
      v.responses = s.responses ++ acceptedN 7 ++
        [{ status := .rejType, consumed := false, data := [], cmd := none }] := by
  obtain ⟨u, hfeed, hup, hucfg, hresp⟩ := feed_header (x := magic ++ [s.cfg.version]) hcfg (by rw [hp, List.drop_zero])
  have hu7 : u.p = 7 := by
    rw [hup, hp]
    rfl
  have hrej := State.receiveByte_otherType (hucfg ▸ hcfg) hu7 ht
  rw [hucfg] at hrej
  refine ⟨_, (feed_append_next hfeed [s.cfg.typeCode t]).trans (feed_cons_next hrej []), rfl, rfl, ?_⟩
  rw [State.ended, hresp]
  rfl

/-- Settles O11: an encoder request's one response is a frame of a type other than RPC_COMMAND, with its checksum unless `ic`
is clear, and the receive path rejects such a frame at its type byte. -/
theorem encoderOutputChecksumAndRejection : Obligations.EncoderOutputChecksumAndRejection := by
  refine ⟨fun i s t r hi h hr => ?_, fun i s t u r hi h hr hcfg hucfg hp => ?_⟩
  · obtain ⟨ty, pl, -, hdata | ⟨-, c, f, rfl⟩⟩ :=
      encoder_response (hi.imp_right (Or.imp_right fun hrpc => ⟨true, hrpc⟩)) h hr
    · exact ⟨_, hdata⟩
    · simp at hi
  · obtain ⟨ty, pl, hty, hdata⟩ := encoder_response hi h hr
    obtain ⟨k, hk⟩ : ∃ k, r.data = frameBytes u.cfg ty pl ++ k := by
      rw [hucfg]
      rcases hdata with hdata | ⟨hdata, -⟩
      · exact ⟨_, hdata⟩
      · exact ⟨[], by rw [hdata, List.append_nil]⟩
    rw [hk]
    exact feed_take_otherType (hucfg ▸ hcfg) hp hty pl k

end Sys2Proof.Machine
end

section
/-! PROOFS. The RPC command decoder: the command kinds (R142, R143), the layout of a WIFI_SETTINGS payload that decodes (R144
to R147), and the request DECODE_RPC_COMMAND (R149). -/

namespace Sys2Proof.Machine

/-! ### The command kinds (R142, R143) -/

/-- But for WIFI_SETTINGS nothing beyond the id is read. -/
theorem decodeRpc_cons_of_kind {cfg : Cfg} {id : Byte} (h : cfg.kindOf id ≠ .wifiSettings) (rest : Bytes) :
    decodeRpc cfg (id :: rest) = .ok { kind := cfg.kindOf id, id := id, ssid := [], password := [] } :=
  if_pos h

theorem decodeRpc_cmdCode {cfg : Cfg} {c : Command} (hcfg : cfg.WellFormed) (hc : c.kind ≠ .wifiSettings) (rest : Bytes) :
    decodeRpc cfg (cfg.cmdCode c :: rest) = .ok { kind := c.kind, id := cfg.cmdCode c, ssid := [], password := [] } := by
  rw [← Cfg.kindOf_cmdCode hcfg c] at hc ⊢
  exact decodeRpc_cons_of_kind hc rest

theorem decodeRpc_unknown {cfg : Cfg} {id : Byte} (h : id ∉ cfg.cmdTable) (rest : Bytes) :
    decodeRpc cfg (id :: rest) = .ok { kind := .unknown, id := id, ssid := [], password := [] } := by
  rw [← Cfg.kindOf_unknown h]
  exact decodeRpc_cons_of_kind (by simp [Cfg.kindOf_unknown h]) rest

/-! ### The layout of WIFI_SETTINGS (R144 to R147) -/

/-- A WIFI_SETTINGS payload that decodes has all its length bytes, and the parts they measure lie inside it. -/
theorem decodeWifi_eq_ok {id : Byte} {pl : Bytes} {c : Cmd} (h : decodeWifi id pl = .ok c) :
    ∃ a s q : Byte, pl[1]? = some a ∧ pl[2]? = some s ∧ pl[3 + s.toNat]? = some q ∧ 2 + a.toNat ≤ pl.length ∧
      s.toNat ≠ 0 ∧ 4 + s.toNat + q.toNat ≤ pl.length ∧
      c = { kind := .wifiSettings, id := id, ssid := (pl.drop 3).take s.toNat,
            password := (pl.drop (4 + s.toNat)).take q.toNat } := by
  unfold decodeWifi at h
  split at h
  · cases h
  next a ha =>
  split_ifs at h with harg
  split at h
  · cases h
  next s hs =>
  split_ifs at h with hssid hne
  split at h
  · cases h
  next q hq =>
  split_ifs at h with hpw
  exact ⟨a, s, q, ha, hs, hq, Nat.not_lt.1 harg, hne, Nat.not_lt.1 hpw, (Except.ok.inj h).symm⟩

/-- The converse of `decodeWifi_of_layout`: cut at its length bytes, a payload that decodes has the layout. -/
theorem layout_of_decodeWifi {id : Byte} {rest : Bytes} {c : Cmd} (h : decodeWifi id (id :: rest) = .ok c) :
    ∃ (a s q : Byte) (ssid pw trail : Bytes), id :: rest = [id, a, s] ++ ssid ++ [q] ++ pw ++ trail ∧
      ssid.length = s.toNat ∧ pw.length = q.toNat ∧ 2 + a.toNat ≤ (id :: rest).length ∧ s.toNat ≠ 0 ∧
      c = { kind := .wifiSettings, id := id, ssid := ssid, password := pw } := by
  obtain ⟨a, s, q, ha, hs, hq, harg, hne, hlen, rfl⟩ := decodeWifi_eq_ok h
  match rest, ha, hs with
  | _ :: _ :: tail, rfl, rfl =>
    simp only [List.length_cons] at hlen
    have hq : tail[s.toNat]? = some q := by
      rw [Nat.add_comm] at hq
      exact hq
    have hdrop : (id :: a :: s :: tail).drop (4 + s.toNat) = tail.drop (s.toNat + 1) := by
      rw [show 4 + s.toNat = s.toNat + 1 + 3 by omega]
      rfl
    rw [hdrop]
    refine ⟨a, s, q, tail.take s.toNat, (tail.drop (s.toNat + 1)).take q.toNat, (tail.drop (s.toNat + 1)).drop q.toNat,
      ?_, List.length_take_of_le (by omega), List.length_take_of_le (by rw [List.length_drop]; omega), harg, hne, rfl⟩
    obtain ⟨_, rfl⟩ := List.getElem?_eq_some_iff.1 hq
    simp

/-! ### The decoder and its request -/

/-- Settles O15: the id's kind is its code's command or UNKNOWN, and the WIFI_SETTINGS part of the decoder keeps kind and id. -/
theorem decoderCommandKinds : Obligations.DecoderCommandKinds := by
  intro cfg hcfg
  refine ⟨rfl, decodeRpc_cmdCode (c := .getCurrentState) hcfg (by decide),
    decodeRpc_cmdCode (c := .getDeviceInfo) hcfg (by decide), decodeRpc_cmdCode (c := .getWifiNetworks) hcfg (by decide),
    fun _ rest hid => decodeRpc_unknown hid rest, fun rest c h => ?_⟩
  rw [decodeRpc_wifiSettings hcfg] at h
  obtain ⟨-, -, -, -, -, -, -, -, -, rfl⟩ := decodeWifi_eq_ok h
  exact ⟨rfl, rfl⟩

/-- Settles O16: what decodes has the layout, and what has the layout decodes. -/
theorem wifiSettingsDecodeLayout : Obligations.WifiSettingsDecodeLayout := by
  intro cfg pl c hcfg hid
  obtain ⟨rest, rfl⟩ := List.head?_eq_some_iff.1 (List.head?_eq_getElem?.trans hid)
  rw [decodeRpc_wifiSettings hcfg]
  refine ⟨layout_of_decodeWifi, ?_⟩
  rintro ⟨a, s, q, ssid, pw, trail, hpl, hssid, hpw, harg, hne, rfl⟩
  rw [hpl] at harg ⊢
  exact decodeWifi_of_layout hssid hpw hne harg

/-- Settles O14: one equation per outcome, and the row of DECODE_RPC_COMMAND fixes every bit below OP. -/
theorem decodeRequestAnswers : Obligations.DecodeRequestAnswers :=
  ⟨fun _ _ _ hlen hd => exec_decodeRpcCommand_ok (Nat.not_lt.2 hlen) hd,
    fun _ _ _ hlen hd => exec_decodeRpcCommand_error (Nat.not_lt.2 hlen) hd,
    fun s _ hlen => exec_decodeRpcCommand_tooLong hlen s, fun _ _ => rfl,
    fun cfg _ x hw hb => decode_of_reserved_mask (op := .decodeRpcCommand) (by decide) hw hb cfg x⟩

end Sys2Proof.Machine
end

section
/-! PROOFS. One received byte (R170 to R184): what each position stores and rejects, what every outcome leaves, and which
outcome can happen where. -/

namespace Sys2Proof.Machine

theorem exec_rxByte (b : Byte) (s : State) : exec (.rxByte b) s = s.receiveByte b := rfl

/-! ### The header and the payload (R172 to R176) -/

/-- R172: at the start of an attempt there is nothing to clear. -/
theorem State.clearAttempt_of_start {s : State} (hp : s.p = 0) (hsum : s.sum = 0#8) : s.clearAttempt = s := by
  rw [State.clearAttempt, ← hsum, ← hp]

/-- R172: at `p = 0` a byte other than the marker's first changes nothing but the response. -/
theorem State.receiveByte_garbage {s : State} {b : Byte} (hp : s.p = 0) (hsum : s.sum = 0#8) (hb : b ≠ 0x49#8) :
    s.receiveByte b = .next (s.respond (rxResponse .rejMagic none)) := by
  have hmagic : magic[s.p]? ≠ some b := by
    rw [hp]
    exact fun h => hb (Option.some.inj h).symm
  rw [State.receiveByte_rejMagic (by omega) hmagic, State.endAttempt, State.clearAttempt_of_start hp hsum]

/-- Settles O18: the marker's byte passes the check of its position and any other fails it. -/
theorem magicPositions : Obligations.MagicPositions := fun _ _ hcfg hp =>
  ⟨fun hb => State.receiveByte_stored hcfg (.inl ⟨hp, hb⟩), fun hb => State.receiveByte_rejMagic hp hb,
    State.receiveByte_garbage⟩

/-- Settles O19: VERSION and TYPE_RPC_COMMAND pass the check of their positions and any other byte fails it; the four type
codes differ. -/
theorem versionAndTypePositions : Obligations.VersionAndTypePositions := by
  intro s b hcfg
  refine ⟨fun hp hb => State.receiveByte_stored hcfg (.inr (.inl ⟨hp, hb⟩)), State.receiveByte_rejVersion,
    fun hp hb => State.receiveByte_stored hcfg (.inr (.inr (.inl ⟨hp, hb⟩))), State.receiveByte_rejType,
    fun hp hb => ?_⟩
  obtain ⟨t, ht, rfl⟩ : ∃ t, t ≠ .rpcCommand ∧ b = s.cfg.typeCode t := by
    simp only [List.mem_cons, List.not_mem_nil, or_false] at hb
    rcases hb with rfl | rfl | rfl
    · exact ⟨.currentState, by decide, rfl⟩
    · exact ⟨.errorState, by decide, rfl⟩
    · exact ⟨.rpcResponse, by decide, rfl⟩
  exact State.receiveByte_otherType hcfg hp ht

/-- Settles O20: the length and payload positions check nothing; with `L = 0` the completed payload is empty, which does not
decode. -/
theorem lengthAndPayloadPositions : Obligations.LengthAndPayloadPositions := by
  intro s b hcfg
  refine ⟨fun hp => ?_, fun l hl hp hpl => ?_, fun hl hp hb => ?_⟩
  · obtain ⟨t, ht, hstored⟩ := State.receiveByte_stored (b := b) hcfg (.inr (.inr (.inr (.inl hp))))
    exact ⟨t, ht, hstored, hp ▸ hstored.byte⟩
  · exact State.receiveByte_stored hcfg (.inr (.inr (.inr (.inr ⟨hp, l, hl, hpl⟩))))
  · exact State.receiveByte_completeFrame hl (hp ▸ Nat.lt_succ_self 8) hb (Memory.readRange_zero s.buf 9)

/-! ### The checksum position (R177, R178) -/

/-- Settles O21: past the payload a byte is compared with `sum`, and the invariant ties `sum` to the bytes below `p`. -/
theorem checksumMismatchRejected : Obligations.ChecksumMismatchRejected := by
  intro s b l hl hp
  refine ⟨State.receiveByte_checksumError hl (by omega), fun hs => ?_⟩
  obtain ⟨bs, hbs, hsum⟩ := Option.map_eq_some_iff.1 hs.sumOk
  exact ⟨bs, hp ▸ hbs, hsum.symm⟩

theorem State.completeFrame_of_error {s : State} {pl : Bytes} {e : ParseError} (h : decodeRpc s.cfg pl = .error e) :
    s.completeFrame pl = s.endAttempt .decodeError none := by
  rw [State.completeFrame, h]

theorem State.completeFrame_of_ok {s : State} {pl : Bytes} {c : Cmd} (h : decodeRpc s.cfg pl = .ok c) :
    s.completeFrame pl = s.endAttempt .command (some c) := by
  rw [State.completeFrame, h]

/-- R181: a command is consumed when its kind is known. -/
theorem consumedFlag_command (c : Cmd) : consumedFlag .command (some c) = decide (c.kind ≠ .unknown) := by
  simp [consumedFlag, bne, beq_eq_decide]

/-- Settles O22: a byte equal to `sum` completes the frame, with the outcome the decoder gives its payload. -/
theorem frameCompletion : Obligations.FrameCompletion := by
  intro s b l pl hl hp hb hpl
  rw [exec_rxByte, State.receiveByte_completeFrame hl (by omega) hb hpl]
  refine ⟨fun hd => ?_, fun c hd => ?_⟩
  · rw [State.completeFrame_of_error hd]
    rfl
  · rw [State.completeFrame_of_ok hd, State.endAttempt_eq_ended, consumedFlag_command]

/-! ### Every outcome (R179 to R181, R183, R188) -/

/-- R70: the outcomes of a byte that fails a check, or of a payload that does not decode. -/
def rejections : List Status := [.rejMagic, .rejVersion, .rejType, .checksumError, .decodeError]

/-- R183: the outcome of a received byte that is answered: ACCEPTED; OVERFLOW, at the capacity; a rejection; or COMMAND, past
the payload. -/
theorem State.receiveByte_outcome {s t : State} {b : Byte} (h : s.receiveByte b = .next t) :
    s.Stored b t ∨ (s.ToStore b ∧ s.cfg.cap ≤ s.p ∧ t = s.endAttempt .overflow none) ∨
      (∃ st ∈ rejections, t = s.endAttempt st none) ∨
      ∃ l c, s.buf.read 8 = some l ∧ 8 + l.toNat < s.p ∧ t = s.endAttempt .command (some c) := by
  rcases State.receiveByte_cases h with ⟨hst, rfl⟩ | ⟨-, -, rfl⟩ | ⟨-, -, rfl⟩ | ⟨-, -, rfl⟩ |
    ⟨l, hl, hlp, -, ⟨-, rfl⟩ | ⟨-, pl, -, rfl⟩⟩
  · rcases Nat.lt_or_ge s.p s.cfg.cap with hp | hp
    · exact .inl (State.storeByte_stored hp b)
    · exact .inr (.inl ⟨hst, hp, State.storeByte_overflow hp b⟩)
  · exact .inr (.inr (.inl ⟨.rejMagic, by decide, rfl⟩))
  · exact .inr (.inr (.inl ⟨.rejVersion, by decide, rfl⟩))
  · exact .inr (.inr (.inl ⟨.rejType, by decide, rfl⟩))
  · exact .inr (.inr (.inl ⟨.checksumError, by decide, rfl⟩))
  · cases hd : decodeRpc s.cfg pl with
    | error e => exact .inr (.inr (.inl ⟨.decodeError, by decide, State.completeFrame_of_error hd⟩))
    | ok c => exact .inr (.inr (.inr ⟨l, c, hl, hlp, State.completeFrame_of_ok hd⟩))

/-- R181: the errors are not consumed. -/
theorem error_not_consumed : ∀ st ∈ Status.overflow :: rejections,
    st ≠ .accepted ∧ st ≠ .command ∧ st ≠ .done ∧ consumedFlag st none = false := by
  decide

/-- Settles O23: a received byte is stored, ends the attempt with an error, or ends it with COMMAND. -/
theorem rxOutcomesAndConsumed : Obligations.RxOutcomesAndConsumed := by
  intro s t b h
  have hout : s.Stored b t ∨ (∃ st ∈ Status.overflow :: rejections, t = s.endAttempt st none) ∨
      ∃ c, t = s.endAttempt .command (some c) := by
    rcases State.receiveByte_outcome h with hst | ⟨-, -, ht⟩ | ⟨st, hst, ht⟩ | ⟨-, c, -, -, ht⟩
    · exact .inl hst
    · exact .inr (.inl ⟨.overflow, by decide, ht⟩)
    · exact .inr (.inl ⟨st, List.mem_cons_of_mem _ hst, ht⟩)
    · exact .inr (.inr ⟨c, ht⟩)
  rcases hout with hst | ⟨st, hst, rfl⟩ | ⟨c, rfl⟩
  · exact ⟨_, hst.responses, rfl, by decide, fun _ => ⟨rfl, rfl, hst.p, hst.sum, hst.byte, hst.others⟩,
      fun hne => absurd rfl hne, fun hne => absurd rfl hne, nofun, hst.cfg, hst.fault, hst.requests⟩
  · obtain ⟨haccepted, hcommand, hdone, hconsumed⟩ := error_not_consumed st hst
    exact ⟨rxResponse st none, rfl, rfl, hdone, fun heq => absurd heq haccepted, fun _ => ⟨rfl, rfl, fun _ => rfl⟩,
      fun _ _ => ⟨hconsumed, rfl⟩, fun heq => absurd heq hcommand, rfl, rfl, rfl⟩
  · have hconsumed : consumedFlag .command (some c) = true ↔ c.kind ≠ .unknown := by
      rw [consumedFlag_command, decide_eq_true_iff]
    exact ⟨rxResponse .command (some c), rfl, rfl, nofun, nofun, fun _ => ⟨rfl, rfl, fun _ => rfl⟩,
      fun _ hne => absurd rfl hne, fun _ => ⟨c, rfl, hconsumed⟩, rfl, rfl, rfl⟩

/-- Settles O24: OVERFLOW is the outcome of a byte to be stored at the capacity and of no other, and R15 keeps such a byte
below it. -/
theorem capacityOverflow : Obligations.CapacityOverflow := by
  refine ⟨fun s b hst hcap => ?_, fun s t b hs h => ?_⟩
  · rw [exec_rxByte, State.receiveByte_toStore hst, State.storeByte_overflow hcap]
    rfl
  · rcases State.receiveByte_outcome h with hst | ⟨hst, hcap, -⟩ | ⟨st, hst, rfl⟩ | ⟨-, c, -, -, rfl⟩
    · exact ⟨_, hst.responses, by decide⟩
    · exact absurd hcap (Nat.not_le.2 (hst.p_lt_cap hs.cfgWf))
    · have hrej : .overflow ∉ rejections := by decide
      exact ⟨rxResponse st none, rfl, ne_of_mem_of_not_mem hst hrej⟩
    · exact ⟨rxResponse .command (some c), rfl, nofun⟩

/-- Settles O25: under the invariants a byte is stored or ends the attempt, as its position's check says. -/
theorem rxByteAlwaysAnswers : Obligations.RxByteAlwaysAnswers :=
  fun _ b hs => hs.receiveByte_stored_or_ended b

/-- R188: COMMAND is the outcome of no byte before the checksum position. -/
theorem State.receiveByte_command_pos {s t : State} {b : Byte} {r : Response} (h : s.receiveByte b = .next t)
    (hr : t.responses = s.responses ++ [r]) (hstatus : r.status = .command) :
    ∃ l, s.buf.read 8 = some l ∧ 8 + l.toNat < s.p := by
  rcases State.receiveByte_outcome h with hst | ⟨-, -, rfl⟩ | ⟨st, hst, rfl⟩ | ⟨l, -, hl, hlp, -⟩
  · obtain rfl : r = _ := by simpa using hr.symm.trans hst.responses
    cases hstatus
  · obtain rfl : r = rxResponse .overflow none := by simpa using hr.symm
    cases hstatus
  · obtain rfl : r = rxResponse st none := by simpa using hr.symm
    obtain rfl : st = .command := hstatus
    exact absurd hst (by decide)
  · exact ⟨l, hl, hlp⟩

end Sys2Proof.Machine
end

section
/-! PROOFS. Runs of received bytes (R185 to R188): frames whole, corrupted, after garbage, and back to back. -/

namespace Sys2Proof.Machine

/-! ### Whole frames (R187, R188) -/

/-- Settles O28: every byte of the frame but its checksum is accepted, and the checksum byte completes it. -/
theorem receivedFrameRoundTrip : Obligations.ReceivedFrameRoundTrip := by
  intro s pl hcfg hp hsum hpl
  obtain ⟨t, hfeed, htp, htsum, -, -, -, hresp⟩ := feed_commandFrame hcfg hp hsum hpl
  exact ⟨t, hfeed, htp, htsum, hresp⟩

/-- Settles O31: COMMAND needs `p` past the payload, which the invariant puts at `9 + L`; and the first frame leaves the
parser where the second can start. -/
theorem commandOnlyAtChecksumPosition : Obligations.CommandOnlyAtChecksumPosition := by
  refine ⟨fun s t b r hs h hr hstatus => ?_, fun s pl pl' hcfg hp hsum hpl hpl' => ?_⟩
  · obtain ⟨l, hl, hlp⟩ := State.receiveByte_command_pos h hr hstatus
    have hle := hs.lenBound (by omega) l hl
    exact ⟨by omega, l, hl, by omega⟩
  · obtain ⟨t, hfeed, htp, htsum, htcfg, -, -, hresp⟩ := feed_commandFrame hcfg hp hsum hpl
    obtain ⟨u, hfeed', hup, -, -, -, -, hresp'⟩ := feed_commandFrame (htcfg ▸ hcfg) htp htsum hpl'
    rw [htcfg] at hfeed' hresp'
    exact ⟨u, (feed_append_next hfeed _).trans hfeed', hup, by rw [hresp', hresp]⟩

/-! ### Corrupted frames (R186) -/

/-- R177: after the bytes of a command frame but its checksum, any byte but the checksum is an error. -/
theorem State.Accepted.receiveByte_otherChecksum {s t : State} {pl : Bytes} {k : Byte} (hpl : pl.length ≤ 255)
    (h : s.Accepted (frameBytes s.cfg .rpcCommand pl) t) (hk : k ≠ sum8 (frameBytes s.cfg .rpcCommand pl)) :
    t.receiveByte k = .next (t.endAttempt .checksumError none) := by
  have hlen : t.buf.read 8 = some (BitVec.ofNat 8 pl.length) := by
    rw [h.read (by rw [length_frameBytes]; omega)]
    rfl
  refine State.receiveByte_checksumError hlen ?_ (h.sum ▸ hk)
  rw [toNat_lengthByte hpl, h.p, length_frameBytes]
  omega

/-- R186: a command frame with another byte in the place of its checksum is accepted up to that byte, which is an error. -/
theorem feed_otherChecksum {s : State} {pl : Bytes} {k : Byte} (hcfg : s.cfg.WellFormed) (hp : s.p = 0)
    (hsum : s.sum = 0#8) (hpl : pl.length ≤ 255) (hk : k ≠ sum8 (frameBytes s.cfg .rpcCommand pl)) :
    ∃ t, feed (frameBytes s.cfg .rpcCommand pl ++ [k]) s = .next t ∧
      t.responses = s.responses ++ acceptedN (9 + pl.length) ++
        [{ status := .checksumError, consumed := false, data := [], cmd := none }] := by
  obtain ⟨t, hfeed, hacc⟩ := feed_frameBytes hcfg hp hsum hpl
  refine ⟨t.endAttempt .checksumError none,
    (feed_append_next hfeed [k]).trans (feed_cons_next (hacc.receiveByte_otherChecksum hpl hk) []), ?_⟩
  rw [State.endAttempt_responses, hacc.responses, length_frameBytes]
  rfl

/-- R103(a): a replaced payload byte changes the frame's checksum, for it changes the payload's and leaves the header as it
was. -/
theorem sum8_frameBytes_set_ne (cfg : Cfg) (t : FrameType) {pl : Bytes} (i : Fin pl.length) {y : Byte} (hy : y ≠ pl[i]) :
    sum8 (frameBytes cfg t (pl.set i y)) ≠ sum8 (frameBytes cfg t pl) := by
  obtain ⟨detects, -, -⟩ := checksumDetectionLaws
  simpa only [frameBytes, List.length_set, sum8_append, ne_eq, BitVec.add_right_inj] using detects pl i y hy

/-- Settles O29: in either case the last byte is not the checksum of the bytes before it. -/
theorem corruptedFrameRejected : Obligations.CorruptedFrameRejected := by
  refine ⟨fun s pl i y hcfg hp hsum hpl hy => ?_, fun s pl k => feed_otherChecksum⟩
  have hlen : (pl.set i y).length = pl.length := List.length_set
  obtain ⟨t, hfeed, hresp⟩ :=
    feed_otherChecksum hcfg hp hsum (by rwa [hlen]) (sum8_frameBytes_set_ne s.cfg .rpcCommand i hy).symm
  exact ⟨t, hfeed, by rw [hresp, hlen]⟩

/-! ### Garbage before a frame (R182, R185) -/

/-- R185: bytes other than the marker's first are rejected one by one, and change nothing else. -/
theorem feed_garbage {s : State} {g : Bytes} (hp : s.p = 0) (hsum : s.sum = 0#8) (hg : 0x49#8 ∉ g) :
    feed g s = .next { s with
      responses := s.responses ++
        List.replicate g.length { status := .rejMagic, consumed := false, data := [], cmd := none } } := by
  induction g generalizing s with
  | nil => simp
  | cons b g ih =>
    obtain ⟨hb, hg⟩ := not_or.1 (List.mem_cons.not.1 hg)
    have hrest := ih (s := s.respond (rxResponse .rejMagic none)) hp hsum hg
    rw [State.respond_responses, List.append_assoc] at hrest
    exact (feed_cons_next (State.receiveByte_garbage hp hsum (Ne.symm hb)) g).trans hrest

/-- R172: the first bytes of the marker are accepted. -/
theorem feed_magic_take {s : State} (hcfg : s.cfg.WellFormed) (hp : s.p = 0) (hsum : s.sum = 0#8) {k : Nat}
    (hk : k ≤ magic.length) : ∃ t, feed (magic.take k) s = .next t ∧ s.Accepted (magic.take k) t := by
  induction k with
  | zero => exact ⟨s, rfl, State.accepted_nil hp hsum⟩
  | succ k ih =>
    obtain ⟨t, hfeed, hacc⟩ := ih (by omega)
    have htp : t.p = k := by rw [hacc.p, List.length_take_of_le (by omega)]
    have hb : magic[t.p]? = some magic[k] := by rw [htp, List.getElem?_eq_getElem hk]
    obtain ⟨u, hu, hstored⟩ :=
      State.receiveByte_stored (hacc.cfg ▸ hcfg) (.inl ⟨htp ▸ Nat.le_of_lt_succ hk, hb⟩)
    rw [List.take_succ_eq_append_getElem hk, feed_append_next hfeed]
    exact ⟨u, feed_cons_next hu [], hacc.stored hstored⟩

/-- R182: the marker's first byte occurs nowhere else in it, so it is rejected at every later position. -/
theorem magic_getElem?_ne_first {k : Nat} (hk : 1 ≤ k) : magic[k]? ≠ some 0x49#8 := by
  intro h
  rw [show k = k - 1 + 1 by omega] at h
  exact absurd (List.mem_of_getElem? (l := magic.tail) h) (by decide)

/-- Settles O30: garbage leaves the parser at the start of an attempt, where a frame is received whole; and after a part of
the marker its first byte fails the check of its position. -/
theorem resynchronisation : Obligations.Resynchronisation := by
  refine ⟨fun s g pl hcfg hp hsum hg hpl => ?_, fun s k hcfg hp hsum hk hk5 => ?_⟩
  · obtain ⟨t, hfeed, htp, -, -, -, -, hresp⟩ := feed_commandFrame (s := { s with
      responses := s.responses ++
        List.replicate g.length { status := .rejMagic, consumed := false, data := [], cmd := none } }) hcfg hp hsum hpl
    exact ⟨t, (feed_append_next (feed_garbage hp hsum hg) _).trans hfeed, htp, hresp⟩
  · obtain ⟨t, hfeed, hacc⟩ := feed_magic_take hcfg hp hsum (Nat.le_succ_of_le hk5)
    have hlen : (magic.take k).length = k := List.length_take_of_le (Nat.le_succ_of_le hk5)
    have htp : t.p = k := hacc.p.trans hlen
    have hrej : t.receiveByte 0x49#8 = .next (t.endAttempt .rejMagic none) :=
      State.receiveByte_rejMagic (htp ▸ hk5) (htp ▸ magic_getElem?_ne_first hk)
    refine ⟨_, (feed_append_next hfeed _).trans (feed_cons_next hrej []), rfl, ?_⟩
    rw [State.endAttempt_responses, hacc.responses, hlen]
    rfl

end Sys2Proof.Machine
end

section
/-! PROOFS. The control requests RESET and the reserved OP (R210, R211): their effect and their words. -/

namespace Sys2Proof.Machine

/-! ### The instructions -/

theorem exec_reset (s : State) : exec .reset s = .next (s.clearAttempt.respond (plainResponse .done [] none)) := rfl

theorem exec_reservedOp (bits : BitVec 13) (s : State) :
    exec (.reservedOp bits) s = .next (s.raiseRequestFault .reservedOp) := rfl

/-! ### The requests -/

/-- R87: the row of RESET fixes every bit, so any other word with its OP sets a bit below OP. -/
theorem and_resetMask_ne_zero {w : ReqWord} (hop : opOf w = .reset) (hne : w ≠ 0x0000#16) :
    w &&& (OpName.reset.mask &&& 0x1FFF#16) ≠ 0 := by
  intro hlow
  have hrow : w &&& OpName.reset.mask = OpName.reset.pattern := (and_mask_eq_pattern_iff w .reset).2 ⟨hop, hlow⟩
  exact hne (BitVec.and_allOnes.symm.trans hrow)

/-- Settles O2: RESET clears the attempt and answers DONE; a word of its OP other than its own sets a reserved bit. -/
theorem resetRequestEffect : Obligations.ResetRequestEffect :=
  ⟨exec_reset, fun _ => rfl, fun cfg w x hw hne =>
    decode_of_reserved_mask (op := .reset) (by decide) hw
      (and_resetMask_ne_zero ((and_op_eq_iff w .reset).1 hw) hne) cfg x⟩

/-- Settles O3: OP is tested before the reserved bits and the side operand, and the other 13 bits are not read. -/
theorem reservedOpRaisesFault : Obligations.ReservedOpRaisesFault := by
  intro w x hw
  have hop : opOf w = .reservedOp := (and_op_eq_iff w .reservedOp).1 hw
  exact ⟨w.extractLsb' 0 13, fun cfg => decode_of_reservedOp hop cfg x, fun s => exec_reservedOp _ s⟩

end Sys2Proof.Machine
end

section
/-! PROOFS. Request faults (R237, R240): a fault leaves everything but the mark as it was, and is raised in the order reserved
OP, reserved bits, then the selector or the payload's length. -/

namespace Sys2Proof.Machine

/-! ### The mark (R240) -/

/-- R240: an instruction that changes the mark raises a request fault, for one that answers a response keeps it. -/
theorem eq_raiseRequestFault_of_fault_ne {i : Instr} {s t : State} (h : exec i s = .next t) (hne : t.fault ≠ s.fault) :
    ∃ r, t = s.raiseRequestFault r := by
  rcases exec_answersOne_or_fault h with ha | hr
  · exact absurd ha.fault hne
  · exact hr

/-- Settles O33: a word rejected for a fault and an instruction that raises one set the mark by the same operation, and a
step tests the mark before it takes a request. -/
theorem requestFaultIsSticky : Obligations.RequestFaultIsSticky :=
  ⟨fun _ _ _ _ _ hcfg hf hr hd => step_of_decode_error hcfg hf hr hd,
    fun _ _ _ h hne => eq_raiseRequestFault_of_fault_ne h hne,
    fun _ _ hcfg hf => step_of_fault hcfg hf⟩

/-! ### The order of the reasons (R237) -/

/-- R240: a request that decodes to an instruction that raises a fault sets the mark and leaves the list. -/
theorem step_of_exec_fault {s : State} {x : Presented} {rest : List Presented} {i : Instr} {r : RequestFaultReason}
    (hcfg : s.cfg.WellFormed) (hf : s.fault = none) (hr : s.requests = x :: rest) (hd : decode s.cfg x = .ok i)
    (he : ∀ t, exec i t = .next (t.raiseRequestFault r)) :
    step s = .next { s with requests := rest, fault := some r } :=
  (step_of_decode_ok hcfg hf hr hd).trans (he _)

/-- R237: a word of a defined OP whose reserved bits are clear is past both tests of the decoder. -/
theorem decode_of_op_clear {w : ReqWord} {op : OpName} (hop : op ≠ .reservedOp) (hw : w &&& 0xE000#16 = op.bits ++ 0#13)
    (hb : reservedBitsSet w = false) (cfg : Cfg) (x : SideOperand) :
    decode cfg (.request w x) = decodeOperands op w x := by
  obtain rfl : opOf w = op := (and_op_eq_iff w op).1 hw
  exact decode_of_clear hop hb cfg x

/-- R66: `esel` as a masked value of the word. -/
theorem toNat_and_esel (w : ReqWord) : (w &&& 0x0007#16).toNat = ((argField w).extractLsb' 0 3).toNat := by
  simp [argField, Nat.and_two_pow_sub_one_eq_mod _ 3]

/-- Settles O35: the decoder tests OP, then the reserved bits; what passes both is an instruction, which tests its selector or
its payload's length itself. -/
theorem faultReasonPriority : Obligations.FaultReasonPriority := by
  intro s w x rest hcfg hf hr
  refine ⟨fun hw => ?_, fun hw hb => ?_, ?_, ?_, ?_⟩
  · have hd := decode_of_reservedOp ((and_op_eq_iff w .reservedOp).1 hw) s.cfg x
    exact step_of_exec_fault hcfg hf hr hd (exec_reservedOp _)
  · exact step_of_decode_error hcfg hf hr (decode_of_reservedBits (opOf_ne_reservedOp hw) hb s.cfg x)
  · rintro hw rfl hb hsel
    have hd := decode_of_op_clear (op := .encError) (by decide) hw hb s.cfg .absent
    have hnone := errorOfSel_eq_none (toNat_and_esel w ▸ hsel)
    exact step_of_exec_fault hcfg hf hr hd (exec_encError_reserved hnone)
  · rintro f hw rfl hb hlen
    have hd := decode_of_op_clear (op := .encRpcResponse) (by decide) hw hb s.cfg (.fields f)
    exact step_of_exec_fault hcfg hf hr hd (exec_encRpcResponse_tooLong hlen _ _)
  · rintro pl hw rfl hb hlen
    have hd := decode_of_op_clear (op := .decodeRpcCommand) (by decide) hw hb s.cfg (.bytes pl)
    exact step_of_exec_fault hcfg hf hr hd (exec_decodeRpcCommand_tooLong hlen)

end Sys2Proof.Machine
end

section
/-! PROOFS. The wait between requests (R282, I13). -/

namespace Sys2Proof.Machine

/-- Settles O37: with no request to take, a step that is neither refused (R15) nor stopped by the mark (R240) is the wait of
log entry 4. -/
theorem stepWaitsForRequest : Obligations.StepWaitsForRequest :=
  fun _ hcfg hf hr => step_of_requests_nil hcfg hf hr

end Sys2Proof.Machine
end
